-- ==== Sys2Proof/Word.lean ====
section
/-! DEFINITION. The two widths of the bus: 8-bit data and 10-bit byte addresses (00_scope.md R9, 20_memory.md R50). -/

namespace Sys2Proof

/-- `DATA_W` = 8: every host-visible value is an unsigned byte (R9, R11). -/
abbrev Byte := BitVec 8

/-- `ADDR_W` = 10: a byte address of the register window, 0x000..0x3FF (R9, R50). -/
abbrev Addr := BitVec 10

end Sys2Proof
end

