-- ==== Sys2Proof/Syntax.lean ====
section
/-! DEFINITION. The command set: one constructor per row of spec/opcode_table.json (30_encoding.md R82).
A command has no operand fields (R80, R81); only the table's "(illegal)" row keeps the byte that was
written, since 247 bytes share it (R83). -/

namespace Sys2Proof

/-- A command byte as the block understands it. -/
inductive Instr where
  /-- 0x00: do nothing (46_control.md R220). -/
  | nop
  /-- 0x01: multiply two field elements (40_gf256.md R103). -/
  | gfMul
  /-- 0x02: raise a field element to a power (40_gf256.md R104). -/
  | gfPow
  /-- 0x03: look up the mask bit of a coordinate (44_masker.md R174). -/
  | maskQ
  /-- 0x04: format the message into the Codeword Block (41_encoder.md R125). -/
  | encode
  /-- 0x05: compute the ECC Block from the Codeword Block (42_ecc.md R144). -/
  | eccRem
  /-- 0x06: build the Symbol Matrix from the Full Codeword (45_placer.md R199). -/
  | place
  /-- 0x07: the whole pipeline from message to matrix (46_control.md R221). -/
  | run
  /-- 0x08: clear the error bits (46_control.md R222). -/
  | clrerr
  /-- 0x09..0xFF: a code with no command (46_control.md R223, 30_encoding.md R83). -/
  | illegal (code : Byte)
  deriving DecidableEq, Repr

end Sys2Proof
end

