-- ==== Sys2Proof/WellFormed.lean ====
section
/-! DEFINITION. Which terms of `Instr` are a row of the opcode map (30_encoding.md R82, R83). -/

namespace Sys2Proof

/-- The one check: an illegal code is a byte 0x09..0xFF, since 0x00..0x08 have commands (R83, R223). -/
def Instr.wf : Instr → Bool
  | .nop | .gfMul | .gfPow | .maskQ | .encode | .eccRem | .place | .run | .clrerr => true
  | .illegal code => decide (0x09 ≤ code.toNat)

end Sys2Proof
end

