-- ==== Sys2Proof/Decode.lean ====
section
/-! DEFINITION. The decoder, "the total function from a byte to a row of rule R82" (30_encoding.md R85),
and after it the encoder, written from the same table. -/

namespace Sys2Proof

/-- Why a list of bytes holds no command. -/
inductive DecodeError where
  /-- No byte was given: a command is always exactly one byte (R85). -/
  | noByte
  deriving DecidableEq, Repr

/-- The opcode map R82. The whole byte is the opcode (R80), and there is no partial decoding (R223). -/
def decodeCommand (c : Byte) : Instr :=
  match c.toNat with
  | 0x00 => .nop
  | 0x01 => .gfMul
  | 0x02 => .gfPow
  | 0x03 => .maskQ
  | 0x04 => .encode
  | 0x05 => .eccRem
  | 0x06 => .place
  | 0x07 => .run
  | 0x08 => .clrerr
  | _ => .illegal c

/-- Decode the first command of a list of bytes and return the rest. The only refusal is an empty list. -/
def decode : List Byte → Except DecodeError (Instr × List Byte)
  | [] => .error .noByte
  | c :: rest => .ok (decodeCommand c, rest)

/-- The byte of a command (R82, R88). -/
def encodeCommand : Instr → Byte
  | .nop => 0x00#8
  | .gfMul => 0x01#8
  | .gfPow => 0x02#8
  | .maskQ => 0x03#8
  | .encode => 0x04#8
  | .eccRem => 0x05#8
  | .place => 0x06#8
  | .run => 0x07#8
  | .clrerr => 0x08#8
  | .illegal code => code

/-- The bytes of a command: always exactly one (R85). -/
def encode (i : Instr) : List Byte := [encodeCommand i]

/-- The bytes that a table word of `nbits` bits stands for: bits above `nbits` are 0, and no command is
longer than one byte or shorter (R80, R85; log 14). -/
def tableBytes (nbits w : Nat) : List Byte :=
  if 1 ≤ nbits ∧ nbits ≤ 8 then [BitVec.ofNat 8 (w % 2 ^ nbits)] else []

/-- The command that `decode` reads from a word of the opcode table. -/
def decodeTableWord (nbits w : Nat) : Option Instr :=
  match decode (tableBytes nbits w) with
  | .ok (i, _) => some i
  | .error _ => none

end Sys2Proof
end

