-- ==== Sys2Proof/Machine/Bits.lean ====
section
/-! DEFINITION. Bit streams: within each byte the most significant bit comes first (00_scope.md R13). -/

namespace Sys2Proof.Machine

/-- The bits of a scalar, most significant first (R13, R121). -/
def msbBits {w : Nat} (v : BitVec w) : List Bool :=
  (List.range w).map fun i => v.getLsbD (w - 1 - i)

/-- The byte whose bit 7 is `f 0` and whose bit 0 is `f 7` (R13, R122). -/
def packByte (f : Nat → Bool) : Byte :=
  (List.range 8).foldl (fun acc b => acc <<< 1 ||| BitVec.zeroExtend 8 (BitVec.ofBool (f b))) 0#8

/-- `zext_8` of one bit (R11). -/
def byteOfBit (b : Bool) : Byte := BitVec.zeroExtend 8 (BitVec.ofBool b)

/-- Bit k of the bit stream of a byte array A: `A[k div 8][7 - (k mod 8)]` (R13). -/
def streamBit {n : Nat} (A : Vector Byte n) (k : Nat) : Bool :=
  (A[k / 8]?.getD 0#8).getLsbD (7 - k % 8)

end Sys2Proof.Machine
end

