-- ==== Sys2Proof/Config.lean ====
section
/-! DEFINITION. The block's fixed parameters (00_scope.md R9) and the reset values of its two
configuration points (R10). There is no free value: the spec leaves no result open (INVENTORY.md).
The two ROMs, GEN and FMT, stand in Machine/Rom.lean. -/

namespace Sys2Proof.Config

/-- `GF_POLY` = 285 = 0x11D, the reducing constant, 9 bits wide (R9, R100). -/
def gfPoly : BitVec 9 := 285#9

/-- `L_MIN` = 1, the shortest legal message (R9, R120). -/
def lMin : Nat := 1

/-- `L_MAX` = 14, the longest legal message (R9, R120). -/
def lMax : Nat := 14

/-- `N_DATA` = 16, bytes of the Codeword Block (R9). -/
def nData : Nat := 16

/-- `N_ECC` = 10, bytes of the ECC Block (R9). -/
def nEcc : Nat := 10

/-- `N_FULL` = 26, bytes of the Full Codeword (R9). -/
def nFull : Nat := 26

/-- `GEN_LEN` = 11, generator coefficients (R9). -/
def genLen : Nat := 11

/-- `SIZE` = 21, the matrix side (R9). -/
def size : Nat := 21

/-- `FMT_LEN` = 15, format descriptor bits (R9). -/
def fmtLen : Nat := 15

/-- `MODE_IND` = 0b0100, byte mode (R9, R121). -/
def modeInd : BitVec 4 := 0b0100#4

/-- `TERM` = 0b0000, the terminator (R9, R121). -/
def term : BitVec 4 := 0b0000#4

/-- `PAD0` = 236 = 0xEC, the first pad byte (R9, R123). -/
def pad0 : Byte := 236#8

/-- `PAD1` = 17 = 0x11, the second pad byte (R9, R123). -/
def pad1 : Byte := 17#8

/-- Reset value of CTRL.MASK_EXEMPT: 1 (R10, R38; log 8: the default, not a parameter). -/
def maskExemptReset : Bool := true

/-- Reset value of CTRL.FMT2_EN: 0 (R10, R38; log 8). -/
def fmt2EnReset : Bool := false

end Sys2Proof.Config
end

