-- ==== Sys2Proof/Machine/State.lean ====
section
/-! DEFINITION. The complete architectural state of GFU (10_state.md R20) as plain data, the host's side of
the bus, the reasons a step can stop, and the state after reset (R38). -/

namespace Sys2Proof.Machine

/-- The two defined bits of CTRL (10_state.md R21). Bits 7:2 store nothing (R22). -/
structure Ctrl where
  /-- Bit 0: 1 = the mode-indicator and terminator bits escape the mask (44_masker.md R172). -/
  maskExempt : Bool
  /-- Bit 1: 1 = PLACE and RUN write the second format copy (45_placer.md R194). -/
  fmt2En : Bool
  deriving DecidableEq, Repr

/-- The two sticky bits of STATUS (10_state.md R23). Bits 7:2 are never set. -/
structure Status where
  /-- Bit 0: ENCODE, PLACE or RUN found MSGLEN outside 1..14 (60_exceptions.md R241). -/
  lenErr : Bool
  /-- Bit 1: a code with no command was written to CMD (60_exceptions.md R242). -/
  cmdErr : Bool
  deriving DecidableEq, Repr

/-- The two error conditions (60_exceptions.md R240). -/
inductive ErrorCause where
  /-- MSGLEN = 0 or MSGLEN > 14; raised by ENCODE, PLACE, RUN. -/
  | lenErr
  /-- CMD written with 0x09..0xFF. -/
  | cmdErr
  deriving DecidableEq, Repr

/-- The Symbol Matrix: 21 rows (y) of 21 modules (x), `true` = 1 = black (10_state.md R35, 00_scope.md R14, R15). -/
abbrev Matrix := Vector (Vector Bool 21) 21

/-- One event on the host's side: a bus access (30_encoding.md R86, R88) or the reset input (70_reset_and_hazards.md R270). -/
inductive HostEvent where
  /-- `MemWrite(a, 1, v)`. -/
  | wr (a : Addr) (v : Byte)
  /-- `MemRead(a, 1)`. -/
  | rd (a : Addr)
  /-- The reset input is asserted and released. -/
  | reset
  deriving DecidableEq, Repr

/-- The state of the block, and of the host program that drives it. GEN, FMT and CMD have no field: the first
two are constants (R33, R34; Machine/Rom.lean) and CMD stores nothing (R25). -/
structure State where
  /-- CTRL (R21). -/
  ctrl : Ctrl
  /-- STATUS (R23). -/
  status : Status
  /-- MSGLEN, the message length L, all 8 bits stored as written (R26). -/
  msglen : Byte
  /-- OPA (R27). -/
  opa : Byte
  /-- OPB (R27). -/
  opb : Byte
  /-- RES (R28). -/
  res : Byte
  /-- MSG[0..13], the message buffer (R29). -/
  msg : Vector Byte 14
  /-- CW[0..25]: the Codeword Block 0..15 and the ECC Block 16..25 (R30). -/
  cw : Vector Byte 26
  /-- MAT (R35). -/
  mat : Matrix
  /-- The model's own: the host's events still to come, oldest first (R62, R88; log 1). -/
  pending : List HostEvent
  /-- The model's own: the bytes the host's reads have returned, oldest first (R277; log 2). -/
  observed : List Byte
  deriving DecidableEq, Repr

/-- Reasons the machine stops. None: the spec gives every access and every command a next state, its two errors
included (R53, R54, R240, R244; log 13). -/
inductive Fault : Type
  deriving DecidableEq, Repr

/-- Reasons the model gives an instruction no meaning. -/
inductive Refusal where
  /-- An instruction without a meaning yet; raised by `exec`'s arm of that name only, and by no arm of this model. Safe. -/
  | notModelled (mnemonic : String)
  deriving DecidableEq, Repr

/-- 441 modules, all 0 (R35, R190 step 1). -/
def Matrix.blank : Matrix := Vector.replicate 21 (Vector.replicate 21 false)

/-- The machine when reset is released (R38, R270), with no host event pending and nothing observed (log 1, 2). -/
def State.reset : State where
  ctrl := { maskExempt := Config.maskExemptReset, fmt2En := Config.fmt2EnReset }
  status := { lenErr := false, cmdErr := false }
  msglen := 0x00#8
  opa := 0x00#8
  opb := 0x00#8
  res := 0x00#8
  msg := Vector.replicate 14 0x00#8
  cw := Vector.replicate 26 0x00#8
  mat := Matrix.blank
  pending := []
  observed := []

end Sys2Proof.Machine
end

