-- ==== Sys2Proof/Machine/Flags.lean ====
section
/-! DEFINITION. The bytes of CTRL and STATUS, and the one check that sets a flag: is MSGLEN in 1..14?
GFU has no condition codes (10_state.md R39). -/

namespace Sys2Proof.Machine

/-- A host write of v to CTRL keeps v[0] and v[1] and discards v[7:2] (10_state.md R22). -/
def Ctrl.ofByte (v : Byte) : Ctrl := { maskExempt := v.getLsbD 0, fmt2En := v.getLsbD 1 }

/-- A read of CTRL returns `zext_8(FMT2_EN ++ MASK_EXEMPT)` (10_state.md R22). -/
def Ctrl.toByte (c : Ctrl) : Byte :=
  BitVec.zeroExtend 8 (BitVec.ofBool c.fmt2En ++ BitVec.ofBool c.maskExempt)

/-- STATUS as read: LEN_ERR in bit 0, CMD_ERR in bit 1, bits 7:2 zero (10_state.md R23). -/
def Status.toByte (st : Status) : Byte :=
  BitVec.zeroExtend 8 (BitVec.ofBool st.cmdErr ++ BitVec.ofBool st.lenErr)

/-- "Its 'cause code' is its bit position in STATUS" (60_exceptions.md R240). -/
def ErrorCause.code : ErrorCause → Nat
  | .lenErr => 0
  | .cmdErr => 1

/-- Set one sticky bit and leave the other (60_exceptions.md R245, R246). -/
def Status.record (st : Status) : ErrorCause → Status
  | .lenErr => { st with lenErr := true }
  | .cmdErr => { st with cmdErr := true }

/-- STATUS = 0x00 (10_state.md R38, 46_control.md R222). -/
def Status.clear : Status := { lenErr := false, cmdErr := false }

/-- 1 ≤ L ≤ 14, L unsigned (41_encoder.md R120, 60_exceptions.md R241). -/
def lengthLegal (L : Byte) : Bool :=
  decide (Config.lMin ≤ L.toNat) && decide (L.toNat ≤ Config.lMax)

end Sys2Proof.Machine
end

