-- ==== Sys2Proof/Machine/Matrix.lean ====
section
/-! DEFINITION. Reading and writing one module of the Symbol Matrix (10_state.md R35; x is the column and y
the row, 00_scope.md R14). -/

namespace Sys2Proof.Machine

/-- MAT[y][x]. Outside the 21x21 grid there is no module; the model reads white there and no rule does (log 17). -/
def Matrix.get (m : Matrix) (x y : Nat) : Bool :=
  (m[y]?.getD (Vector.replicate 21 false))[x]?.getD false

/-- `MAT[y][x] <- b`. Outside the grid there is no module to write. -/
def Matrix.put (m : Matrix) (x y : Nat) (b : Bool) : Matrix :=
  m.setIfInBounds y ((m[y]?.getD (Vector.replicate 21 false)).setIfInBounds x b)

/-- One module write of the placer. -/
structure Dot where
  /-- The column. -/
  x : Nat
  /-- The row. -/
  y : Nat
  /-- `true` = black. -/
  black : Bool
  deriving DecidableEq, Repr

/-- Carry out module writes in order. -/
def Matrix.putAll (m : Matrix) (dots : List Dot) : Matrix :=
  dots.foldl (fun m d => m.put d.x d.y d.black) m

end Sys2Proof.Machine
end

