-- ==== Sys2Proof/Machine/Rom.lean ====
section
/-! DEFINITION. The two constant tables of the block (10_state.md R33, R34). Both values are the spec's, which
marks them as general knowledge (42_ecc.md R140, 43_format.md R160; UNVERIFIED, log 6). -/

namespace Sys2Proof.Machine.Rom

/-- GEN[0..10], highest-degree coefficient first (42_ecc.md R140). -/
def gen : Vector Byte 11 :=
  #v[0x01#8, 0xD8#8, 0xC2#8, 0x9F#8, 0x6F#8, 0xC7#8, 0x5E#8, 0x5F#8, 0x71#8, 0x9D#8, 0xC1#8]

/-- FMT, the 15-bit Format Descriptor (43_format.md R160). -/
def fmt : BitVec 15 := 0x5412#15

/-- FMT_HI = zext_8(FMT[14:8]) (43_format.md R161). -/
def fmtHi : Byte := BitVec.zeroExtend 8 (fmt.extractLsb 14 8)

/-- FMT_LO = FMT[7:0] (43_format.md R161). -/
def fmtLo : Byte := fmt.extractLsb 7 0

end Sys2Proof.Machine.Rom
end

