-- ==== Sys2Proof/Machine/Ops.lean ====
section
/-! DEFINITION. The named operations over the state: one setter per field, the address map, reading and
storing one location of the window, raising an error and the ways back from it, reset, and the address
space seen as one memory. -/

namespace Sys2Proof.Machine

/-! ### Setters -/

/-- Replace CTRL. -/
def State.setCtrl (s : State) (v : Ctrl) : State := { s with ctrl := v }
/-- Replace STATUS. -/
def State.setStatus (s : State) (v : Status) : State := { s with status := v }
/-- `R[MSGLEN] <- v`. -/
def State.setMsglen (s : State) (v : Byte) : State := { s with msglen := v }
/-- `R[OPA] <- v`. -/
def State.setOpa (s : State) (v : Byte) : State := { s with opa := v }
/-- `R[OPB] <- v`. -/
def State.setOpb (s : State) (v : Byte) : State := { s with opb := v }
/-- `R[RES] <- v`. -/
def State.setRes (s : State) (v : Byte) : State := { s with res := v }
/-- Replace MSG. -/
def State.setMsg (s : State) (v : Vector Byte 14) : State := { s with msg := v }
/-- Replace CW. -/
def State.setCw (s : State) (v : Vector Byte 26) : State := { s with cw := v }
/-- Replace MAT. -/
def State.setMat (s : State) (v : Matrix) : State := { s with mat := v }
/-- Replace the host's events still to come. -/
def State.setPending (s : State) (v : List HostEvent) : State := { s with pending := v }
/-- Replace the bytes the host has read. -/
def State.setObserved (s : State) (v : List Byte) : State := { s with observed := v }

/-- `CW[0..15] <- b`; CW[16..25] stays. -/
def withData (cw : Vector Byte 26) (b : Vector Byte 16) : Vector Byte 26 :=
  Vector.ofFn fun i => if h : i.val < 16 then b[i.val] else cw[i]

/-- `CW[16..25] <- e`; CW[0..15] stays. -/
def withEcc (cw : Vector Byte 26) (e : Vector Byte 10) : Vector Byte 26 :=
  Vector.ofFn fun i => if h : i.val < 16 then cw[i] else e[i.val - 16]

/-! ### The address map -/

/-- What an address of the window names (20_memory.md R51). -/
inductive Location where
  | ctrl
  | status
  | cmd
  | msglen
  | opa
  | opb
  | res
  | msg (i : Fin 14)
  | cw (i : Fin 26)
  | gen (j : Fin 11)
  | fmtHi
  | fmtLo
  | mat (y x : Fin 21)
  | reserved
  deriving DecidableEq, Repr

/-- The address of CMD (20_memory.md R51). -/
def cmdAddr : Addr := 0x002#10

/-- The address map R51, with MAT row-major from 0x100 (R52); every address not listed is reserved (R53). -/
def locate (a : Addr) : Location :=
  let n := a.toNat
  if n = 0x000 then .ctrl
  else if n = 0x001 then .status
  else if n = 0x002 then .cmd
  else if n = 0x003 then .msglen
  else if n = 0x004 then .opa
  else if n = 0x005 then .opb
  else if n = 0x006 then .res
  else if h : 0x010 ≤ n ∧ n ≤ 0x01D then .msg ⟨n - 0x010, by omega⟩
  else if h : 0x020 ≤ n ∧ n ≤ 0x039 then .cw ⟨n - 0x020, by omega⟩
  else if h : 0x040 ≤ n ∧ n ≤ 0x04A then .gen ⟨n - 0x040, by omega⟩
  else if n = 0x04C then .fmtHi
  else if n = 0x04D then .fmtLo
  else if h : 0x100 ≤ n ∧ n ≤ 0x2B8 then
    .mat ⟨(n - 0x100) / 21, by omega⟩ ⟨(n - 0x100) % 21, by omega⟩
  else .reserved

/-- The byte a location reads as: CMD and reserved addresses read 0x00 (20_memory.md R55, R53; 10_state.md R25),
a module reads 0x00 or 0x01 (R52). -/
def readLocation (s : State) : Location → Byte
  | .ctrl => s.ctrl.toByte
  | .status => s.status.toByte
  | .cmd => 0x00#8
  | .msglen => s.msglen
  | .opa => s.opa
  | .opb => s.opb
  | .res => s.res
  | .msg i => s.msg[i]
  | .cw i => s.cw[i]
  | .gen j => Rom.gen[j]
  | .fmtHi => Rom.fmtHi
  | .fmtLo => Rom.fmtLo
  | .mat y x => byteOfBit (s.mat.get x.val y.val)
  | .reserved => 0x00#8

/-- `MemRead(a, 1)` (20_memory.md R55). It changes no state. -/
def memRead (s : State) (a : Addr) : Byte := readLocation s (locate a)

/-- Store a host byte in a location: the rows of R56 other than CMD, whose write is no store (R25, R60). Read-only
and reserved locations keep what they hold (20_memory.md R53, R54; 10_state.md R24, R28, R33, R34). -/
def storeLocation (s : State) (l : Location) (v : Byte) : State :=
  match l with
  | .ctrl => s.setCtrl (Ctrl.ofByte v)
  | .status => s
  | .cmd => s
  | .msglen => s.setMsglen v
  | .opa => s.setOpa v
  | .opb => s.setOpb v
  | .res => s
  | .msg i => s.setMsg (s.msg.set i v)
  | .cw i => s.setCw (s.cw.set i v)
  | .gen _ => s
  | .fmtHi => s
  | .fmtLo => s
  | .mat _ _ => s
  | .reserved => s

/-! ### Errors and reset -/

/-- `raise <cause>`: set the STATUS bit, end the command, leave every other piece of state (00_scope.md R12,
60_exceptions.md R243, R244). Control goes nowhere: no vector, no saved state, no mode. -/
def raise (e : ErrorCause) (s : State) : State := s.setStatus (s.status.record e)

/-- The way back from an error: both STATUS bits to 0 (46_control.md R222, 60_exceptions.md R246). -/
def clearErrors (s : State) : State := s.setStatus Status.clear

/-- Check MSGLEN before anything is written, then run `effect` or raise LEN_ERR (60_exceptions.md R241). -/
def checkLength (effect : State → State) (s : State) : State :=
  if lengthLegal s.msglen then effect s else raise .lenErr s

/-- Reset asserted and released: every item of the block takes its reset value (70_reset_and_hazards.md R270,
10_state.md R38). The host's own program and log are not the block's (log 4). -/
def hardReset (s : State) : State :=
  (State.reset.setPending s.pending).setObserved s.observed

/-! ### The address space as one memory -/

/-- A memory as cells: addresses strictly rising, no cell equal to what an unlisted address reads as. -/
abbrev Memory := List Host.Cell

/-- What an unlisted address reads as: 0x00, as reserved addresses do (20_memory.md R53). -/
def Memory.unlisted : Byte := 0x00#8

/-- The canonical form. -/
def Memory.wf (m : Memory) : Bool :=
  decide (m.Pairwise fun p q => p.1 < q.1) && m.all fun p => p.2 != Memory.unlisted

/-- The byte at an address. -/
def Memory.read (m : Memory) (a : Nat) : Byte :=
  ((m.find? fun p => p.1 == a).map fun p => p.2).getD Memory.unlisted

/-- The whole register window, 1024 locations (20_memory.md R50), as one memory (log 11). -/
def State.window (s : State) : Memory :=
  ((List.range 1024).map fun a => (a, memRead s (BitVec.ofNat 10 a))).filter fun p => p.2 != Memory.unlisted

end Sys2Proof.Machine
end

