-- ==== Sys2Proof/Machine/Operands.lean ====
section
/-! DEFINITION. The operands of the commands: fixed registers and buffers, every one an unsigned byte
(30_encoding.md R81). OPA, OPB, MSGLEN and CTRL are read as the fields they are. -/

namespace Sys2Proof.Machine

/-- MSG[0..L-1], L = MSGLEN: the only message bytes a command reads (10_state.md R29, 41_encoder.md R126). -/
def message (s : State) : List Byte := s.msg.toList.take s.msglen.toNat

/-- CW[0..15], the Codeword Block (10_state.md R30). -/
def dataBlock (cw : Vector Byte 26) : Vector Byte 16 :=
  Vector.ofFn fun i => cw[i.val]

/-- CW[16..25], the ECC Block (10_state.md R30). -/
def eccBlock (cw : Vector Byte 26) : Vector Byte 10 :=
  Vector.ofFn fun k => cw[16 + k.val]

end Sys2Proof.Machine
end

