-- ==== Sys2Proof/Machine/Gf256.lean ====
section
/-! DEFINITION. The GF(256) arithmetic unit (40_gf256.md): `gf_mul`, `gf_pow`, GF_MUL, GF_POW. -/

namespace Sys2Proof.Machine

/-- Double the 9-bit `a`, reducing by 285 where the shift gave 256 or more (R100). -/
def gfDouble (a : BitVec 9) : BitVec 9 :=
  let d := a <<< 1
  if 256 ≤ d.toNat then d ^^^ Config.gfPoly else d

/-- One turn of R100's loop: add `a` where the bit of y is set, then double it. -/
def gfMulStep (ra : Byte × BitVec 9) (yi : Bool) : Byte × BitVec 9 :=
  (if yi then ra.1 ^^^ BitVec.truncate 8 ra.2 else ra.1, gfDouble ra.2)

/-- `gf_mul(x, y)`: the carryless product reduced by 0x11D, bits of y from bit 0 upward (R100). -/
def gfMul (x y : Byte) : Byte :=
  ((List.range 8).foldl (fun ra i => gfMulStep ra (y.getLsbD i)) (0#8, BitVec.zeroExtend 9 x)).1

/-- r multiplied by x, n times (R102). -/
def gfPowLoop (x : Byte) : Nat → Byte
  | 0 => 1#8
  | n + 1 => gfMul (gfPowLoop x n) x

/-- `gf_pow(x, n)`: the n-fold product, the empty product 1 (R102). -/
def gfPow (x n : Byte) : Byte := gfPowLoop x n.toNat

/-- GF_MUL: `R[RES] <- gf_mul(R[OPA], R[OPB])` (R103). -/
def execGfMul (s : State) : Host.Outcome State Fault Refusal :=
  .next (s.setRes (gfMul s.opa s.opb))

/-- GF_POW: `R[RES] <- gf_pow(R[OPA], R[OPB])` (R104). -/
def execGfPow (s : State) : Host.Outcome State Fault Refusal :=
  .next (s.setRes (gfPow s.opa s.opb))

end Sys2Proof.Machine
end

