-- ==== Sys2Proof/Machine/Ecc.lean ====
section
/-! DEFINITION. The Galois-field polynomial divider (42_ecc.md) and ECC_REM. -/

namespace Sys2Proof.Machine

/-- Row i of R142: with `factor = a[i]` read once, `a[i+j] ^= gf_mul(c, factor)` for j = 0 .. 25-i, where c is
g[j] for j < 11 and 0 after. -/
def divideRow (g : Vector Byte 11) (a : Vector Byte 26) (i : Nat) : Vector Byte 26 :=
  let factor := a[i]?.getD 0#8
  (List.range (26 - i)).foldl
    (fun a j =>
      let c := if j < 11 then g[j]?.getD 0#8 else 0#8
      a.setIfInBounds (i + j) (a[i + j]?.getD 0#8 ^^^ gfMul c factor))
    a

/-- `a[0..15] <- block; a[16..25] <- 0`: the private working array (R142, R145). -/
def extendBlock (block : Vector Byte 16) : Vector Byte 26 :=
  Vector.ofFn fun i => if h : i.val < 16 then block[i.val] else 0#8

/-- `remainder(block, g)`: the last 10 bytes of the working array after rows 0 .. 15 (R142). -/
def remainder (block : Vector Byte 16) (g : Vector Byte 11) : Vector Byte 10 :=
  eccBlock ((List.range 16).foldl (divideRow g) (extendBlock block))

/-- `CW[16..25] <- remainder(CW[0..15], GEN)`: ECC_REM, and RUN's second stage (R144, 46_control.md R221). -/
def appendEcc (s : State) : State :=
  s.setCw (withEcc s.cw (remainder (dataBlock s.cw) Rom.gen))

/-- ECC_REM (R144): every block is accepted, and CW[0..15] stays (R145). -/
def execEccRem (s : State) : Host.Outcome State Fault Refusal :=
  .next (appendEcc s)

end Sys2Proof.Machine
end

