-- ==== Sys2Proof/Machine/Encoder.lean ====
section
/-! DEFINITION. The message-to-codeword block formatter (41_encoder.md) and ENCODE. -/

namespace Sys2Proof.Machine

/-- The message bit string S = 0100 ++ L[7:0] ++ MSG[0] ++ ... ++ MSG[L-1] ++ 0000 (R121). -/
def messageStream (L : Byte) (m : List Byte) : List Bool :=
  msbBits Config.modeInd ++ msbBits L ++ m.flatMap msbBits ++ msbBits Config.term

/-- The first n bytes of a bit string: byte i is bits 8i .. 8i+7, bit 8i as the byte's bit 7 (R122). -/
def repack (S : List Bool) (n : Nat) : List Byte :=
  (List.range n).map fun i => packByte fun b => S.getD (8 * i + b) false

/-- n pad bytes, 236 and 17 alternating from 236 (R123). -/
def padBytes (n : Nat) : List Byte :=
  (List.range n).map fun k => if k % 2 = 0 then Config.pad0 else Config.pad1

/-- `encode(MSG, L)` for legal L: L + 2 content bytes and 14 - L pad bytes, 16 in all (R122 to R124). -/
def encodeBlock (L : Byte) (m : List Byte) : Vector Byte 16 :=
  let bytes := repack (messageStream L m) (L.toNat + 2) ++ padBytes (14 - L.toNat)
  Vector.ofFn fun i => bytes.getD i.val 0#8

/-- `CW[0..15] <- encode(MSG, L)`: ENCODE past its length check, and RUN's first stage (R125, 46_control.md R221). -/
def formatMessage (s : State) : State :=
  s.setCw (withData s.cw (encodeBlock s.msglen (message s)))

/-- ENCODE (R125). -/
def execEncode (s : State) : Host.Outcome State Fault Refusal :=
  .next (checkLength formatMessage s)

end Sys2Proof.Machine
end

