-- ==== Sys2Proof/Machine/Masker.lean ====
section
/-! DEFINITION. The coordinate-keyed masker (44_masker.md) and MASK_Q. -/

namespace Sys2Proof.Machine

/-- `mask_coord(x, y) = 1 if (x + y) mod 2 == 0`, the sum never wrapped (R170, R174). -/
def maskCoord (x y : Nat) : Bool := (x + y) % 2 == 0

/-- k ∈ E(L): the mode-indicator bits 0..3 and the terminator bits 12+8L .. 15+8L (R171). -/
def isExempt (L k : Nat) : Bool :=
  decide (k ≤ 3) || (decide (12 + 8 * L ≤ k) && decide (k ≤ 15 + 8 * L))

/-- `inv(k, x, y)`: is data bit k inverted at (x, y)? (R172) -/
def inverted (maskExempt : Bool) (L k x y : Nat) : Bool :=
  maskCoord x y && !(maskExempt && isExempt L k)

/-- MASK_Q: `R[RES] <- zext_8(mask_coord(R[OPA], R[OPB]))` (R174). -/
def execMaskQ (s : State) : Host.Outcome State Fault Refusal :=
  .next (s.setRes (byteOfBit (maskCoord s.opa.toNat s.opb.toNat)))

end Sys2Proof.Machine
end

