-- ==== Sys2Proof/Machine/Placer.lean ====
section
/-! DEFINITION. The module placer (45_placer.md) and PLACE. Every pattern is a list of module writes; the
positions are the spec's, which marks them as general knowledge (UNVERIFIED, log 7). -/

namespace Sys2Proof.Machine

/-- Distance of local offset i from the middle of a finder: |i - 3| (R191). -/
def finderDistance (i : Nat) : Nat := (i - 3) + (3 - i)

/-- A 7x7 finder with top-left corner (ox, oy): 1 where max(|i-3|, |j-3|) ≠ 2 (R191). -/
def finderDots (ox oy : Nat) : List Dot :=
  (List.range 7).flatMap fun j => (List.range 7).map fun i =>
    { x := ox + i, y := oy + j, black := max (finderDistance i) (finderDistance j) != 2 }

/-- The three finders (R191). -/
def finders : List Dot := finderDots 0 0 ++ finderDots 14 0 ++ finderDots 0 14

/-- The separators, written 0 (R192). -/
def separators : List Dot :=
  (List.range 8).map (fun k => { x := 7, y := k, black := false })
    ++ (List.range 8).map (fun k => { x := k, y := 7, black := false })
    ++ (List.range 8).map (fun k => { x := 13, y := k, black := false })
    ++ (List.range 8).map (fun k => { x := 13 + k, y := 7, black := false })
    ++ (List.range 8).map (fun k => { x := 7, y := 13 + k, black := false })
    ++ (List.range 8).map (fun k => { x := k, y := 13, black := false })

/-- The timing patterns for k = 8 .. 12, row 6 and column 6, dark where k is even (R193). -/
def timing : List Dot :=
  (List.range 5).flatMap fun d =>
    [{ x := 8 + d, y := 6, black := (8 + d) % 2 == 0 },
     { x := 6, y := 8 + d, black := (8 + d) % 2 == 0 }]

/-- The dark module at (8, 13) (R193). -/
def darkModule : List Dot := [{ x := 8, y := 13, black := true }]

/-- Copy 1 of the format descriptor: the (x, y) of FMT bit 0, 1, ..., 14 (R194). -/
def formatPlaces1 : List (Nat × Nat) :=
  [(8, 0), (8, 1), (8, 2), (8, 3), (8, 4), (8, 5), (8, 7), (8, 8)]
    ++ [(7, 8), (5, 8), (4, 8), (3, 8), (2, 8), (1, 8), (0, 8)]

/-- Copy 2 of the format descriptor (R194). -/
def formatPlaces2 : List (Nat × Nat) :=
  [(20, 8), (19, 8), (18, 8), (17, 8), (16, 8), (15, 8), (14, 8), (13, 8)]
    ++ [(8, 14), (8, 15), (8, 16), (8, 17), (8, 18), (8, 19), (8, 20)]

/-- Module i of a copy receives FMT[i] (R194, 43_format.md R162). -/
def formatDots (places : List (Nat × Nat)) : List Dot :=
  places.zipIdx.map fun p => { x := p.1.1, y := p.1.2, black := Rom.fmt.getLsbD p.2 }

/-- Copy 1 always; copy 2 when FMT2_EN = 1, and else its modules stay 0 (R194). -/
def formatCopies (c : Ctrl) : List Dot :=
  formatDots formatPlaces1 ++ if c.fmt2En then formatDots formatPlaces2 else []

/-- The modules that carry no data; the second copy's are among them whatever FMT2_EN is (R195). -/
def reserved (x y : Nat) : Bool :=
  (decide (x ≤ 7) && decide (y ≤ 7))
    || (decide (13 ≤ x) && decide (y ≤ 7))
    || (decide (x ≤ 7) && decide (13 ≤ y))
    || x == 6 || y == 6
    || (x == 8 && (decide (y ≤ 8) || decide (13 ≤ y)))
    || (y == 8 && (decide (x ≤ 8) || decide (13 ≤ x)))

/-- One column pair, upward or downward, the right column before the left in each row (R196). -/
def columnPair (right : Nat) (up : Bool) : List (Nat × Nat) :=
  (List.range 21).flatMap fun step =>
    let y := if up then 20 - step else step
    [(right, y), (right - 1, y)].filter fun p => !reserved p.1 p.2

/-- R196's loop: while right ≥ 1, skip column 6, walk the pair, step two columns left and turn. `fuel` bounds the
turns; the loop takes ten. -/
def traversalFrom : (fuel : Nat) → (right : Nat) → (up : Bool) → List (Nat × Nat)
  | 0, _, _ => []
  | fuel + 1, right, up =>
    if 1 ≤ right then
      let r := if right = 6 then 5 else right
      columnPair r up ++ traversalFrom fuel (r - 2) (!up)
    else []

/-- T, the traversal, from (20, 20) upward (R196, R197). -/
def traversal : List (Nat × Nat) := traversalFrom 21 20 true

/-- Data bit k of the Full Codeword goes to T[k], inverted where the masker says so (R198, 44_masker.md R172). -/
def dataDots (c : Ctrl) (L : Nat) (cw : Vector Byte 26) : List Dot :=
  traversal.zipIdx.map fun p =>
    { x := p.1.1, y := p.1.2,
      black := streamBit cw p.2 ^^ inverted c.maskExempt L p.2 p.1.1 p.1.2 }

/-- The module writes of R190 after the clear, in its order. -/
def symbolDots (c : Ctrl) (L : Nat) (cw : Vector Byte 26) : List Dot :=
  finders ++ separators ++ timing ++ darkModule ++ formatCopies c ++ dataDots c L cw

/-- The matrix R199 builds from CW, L and CTRL, starting from 441 zero bits (R190). -/
def symbolMatrix (c : Ctrl) (L : Nat) (cw : Vector Byte 26) : Matrix :=
  Matrix.blank.putAll (symbolDots c L cw)

/-- `MAT <- M`: PLACE past its length check, and RUN's last stage (R199, 46_control.md R221). -/
def placeSymbol (s : State) : State :=
  s.setMat (symbolMatrix s.ctrl s.msglen.toNat s.cw)

/-- PLACE (R199): the length check applies whatever MASK_EXEMPT is. -/
def execPlace (s : State) : Host.Outcome State Fault Refusal :=
  .next (checkLength placeSymbol s)

end Sys2Proof.Machine
end

