-- ==== Sys2Proof/Machine/Control.lean ====
section
/-! DEFINITION. The control commands (46_control.md): NOP, RUN, CLRERR and the codes with no command. -/

namespace Sys2Proof.Machine

/-- NOP: no state changes (R220). -/
def execNop (s : State) : Host.Outcome State Fault Refusal :=
  .next s

/-- RUN: one length check, then encode, remainder and placement (R221). -/
def execRun (s : State) : Host.Outcome State Fault Refusal :=
  .next (checkLength (fun s => placeSymbol (appendEcc (formatMessage s))) s)

/-- CLRERR: both STATUS bits to 0 (R222). -/
def execClrerr (s : State) : Host.Outcome State Fault Refusal :=
  .next (clearErrors s)

/-- An illegal code: `raise CMD_ERR`, whatever the code is (R223; log 12). -/
def execIllegal (_code : Byte) (s : State) : Host.Outcome State Fault Refusal :=
  .next (raise .cmdErr s)

end Sys2Proof.Machine
end

