-- ==== Sys2Proof/Machine/Dispatch.lean ====
section
/-! DEFINITION. One arm per command: the meaning it has (30_encoding.md R82). -/

namespace Sys2Proof.Machine

def exec (i : Instr) (s : State) : Host.Outcome State Fault Refusal :=
  match i with
  | .nop => Sys2Proof.Machine.execNop s
  | .gfMul => Sys2Proof.Machine.execGfMul s
  | .gfPow => Sys2Proof.Machine.execGfPow s
  | .maskQ => Sys2Proof.Machine.execMaskQ s
  | .encode => Sys2Proof.Machine.execEncode s
  | .eccRem => Sys2Proof.Machine.execEccRem s
  | .place => Sys2Proof.Machine.execPlace s
  | .run => Sys2Proof.Machine.execRun s
  | .clrerr => Sys2Proof.Machine.execClrerr s
  | .illegal code => Sys2Proof.Machine.execIllegal code s

end Sys2Proof.Machine
end

