-- ==== Sys2Proof/Machine/Bus.lean ====
section
/-! DEFINITION. What each host event does (20_memory.md R55, R56, R62), and taking the next one. -/

namespace Sys2Proof.Machine

/-- "Perform command v": decode the byte and run it, as one indivisible step (10_state.md R25, 30_encoding.md R82). -/
def performCommand (v : Byte) (s : State) : Host.Outcome State Fault Refusal :=
  exec (decodeCommand v) s

/-- `MemWrite(a, 1, v)`: at CMD a command, elsewhere at most a store (20_memory.md R56, R60). -/
def memWrite (a : Addr) (v : Byte) (s : State) : Host.Outcome State Fault Refusal :=
  if a = cmdAddr then performCommand v s else .next (storeLocation s (locate a) v)

/-- Give the host the byte a read returned (70_reset_and_hazards.md R277; log 2). -/
def observe (v : Byte) (s : State) : State := s.setObserved (s.observed ++ [v])

/-- One host event. -/
def serve (e : HostEvent) (s : State) : Host.Outcome State Fault Refusal :=
  match e with
  | .wr a v => memWrite a v s
  | .rd a => .next (observe (memRead s a) s)
  | .reset => .next (hardReset s)

/-- Serve the oldest pending event (20_memory.md R62). With none pending the block holds its state (60_exceptions.md R256; log 3). -/
def serveNext (s : State) : Host.Outcome State Fault Refusal :=
  match s.pending with
  | [] => .next s
  | e :: rest => serve e (s.setPending rest)

/-- The host event that supplies a command word of the opcode table: a CMD write of its byte, and nothing where the
word is no command (30_encoding.md R80, R88; log 14). -/
def commandEvents (nbits w : Nat) : List HostEvent :=
  (tableBytes nbits w).map fun v => .wr cmdAddr v

end Sys2Proof.Machine
end

