-- ==== Sys2Proof/Machine/Step.lean ====
section
/-! DEFINITION. One step: the next host event takes effect (00_scope.md R19, 20_memory.md R62). -/

namespace Sys2Proof.Machine

/-- One step of the machine. -/
def step (s : State) : Host.Outcome State Fault Refusal := serveNext s

/-- `s` with the command of a table word as the host's very next event (log 1, 14): the block fetches nothing, a command
is supplied by a host write to CMD (10_state.md R31). -/
def State.withFetchWord (s : State) (nbits w : Nat) : State :=
  s.setPending (commandEvents nbits w ++ s.pending)

end Sys2Proof.Machine
end

