-- ==== Sys2Proof/Machine/Asm.lean ====
section
/-! DEFINITION. The host-access assembly of the test programs (30_encoding.md R86 to R88): its statements, which of
them are well formed, and their encoding as bus accesses. -/

namespace Sys2Proof.Machine

/-- The register names of 20_memory.md R51 that stand for one address. -/
inductive RegName where
  | ctrl
  | status
  | cmd
  | msglen
  | opa
  | opb
  | res
  | fmtHi
  | fmtLo
  deriving DecidableEq, Repr

/-- `<addr>`: a number, a register name, or `MSG+i`, `CW+i`, `GEN+j`, `MAT+k` (R86). -/
inductive AddrExpr where
  | number (a : Nat)
  | reg (r : RegName)
  | msg (i : Nat)
  | cw (i : Nat)
  | gen (j : Nat)
  | mat (k : Nat)
  deriving DecidableEq, Repr

/-- A statement (R86) or a pseudo-statement (R87). -/
inductive Stmt where
  /-- `WR <addr>, <byte>`. -/
  | wr (a : AddrExpr) (b : Byte)
  /-- `RD <addr>`, with the byte of its annotation `; => <byte>` where it has one. -/
  | rd (a : AddrExpr) (expected : Option Byte)
  /-- `<MNEMONIC>`. -/
  | command (i : Instr)
  /-- `SETMSG b0, ..., b(L-1)`. -/
  | setmsg (bytes : List Byte)
  /-- `SETCW c0, ..., c(n-1)`. -/
  | setcw (bytes : List Byte)
  /-- `RDMAT x, y`. DESIGN CHOICE (log 15): it takes no annotation `; => <byte>`. R86 gives the annotation for `RD` only,
  R87 is silent, and 95_test_vectors.md writes it after `RDMAT` too; an annotation has no bus effect, so none is lost. -/
  | rdmat (x y : Nat)
  deriving DecidableEq, Repr

/-- The address a register name stands for (20_memory.md R51). -/
def RegName.number : RegName → Nat
  | .ctrl => 0x000
  | .status => 0x001
  | .cmd => 0x002
  | .msglen => 0x003
  | .opa => 0x004
  | .opb => 0x005
  | .res => 0x006
  | .fmtHi => 0x04C
  | .fmtLo => 0x04D

/-- The number an `<addr>` stands for (R86). -/
def AddrExpr.toNat : AddrExpr → Nat
  | .number a => a
  | .reg r => r.number
  | .msg i => 0x010 + i
  | .cw i => 0x020 + i
  | .gen j => 0x040 + j
  | .mat k => 0x100 + k

/-- The bus address of an `<addr>`. -/
def AddrExpr.addr (a : AddrExpr) : Addr := BitVec.ofNat 10 a.toNat

/-- An `<addr>` names a location: the address fits 10 bits, an index lies in its buffer (R86, 20_memory.md R51; log 15). -/
def AddrExpr.wf : AddrExpr → Bool
  | .number a => decide (a < 1024)
  | .reg _ => true
  | .msg i => decide (i ≤ 13)
  | .cw i => decide (i ≤ 25)
  | .gen j => decide (j ≤ 10)
  | .mat k => decide (k ≤ 440)

/-- A statement is one R86 or R87 defines: `<MNEMONIC>` is a mnemonic of R82, lists fit their buffers, coordinates lie
on the grid (log 15). -/
def Stmt.wf : Stmt → Bool
  | .wr a _ => a.wf
  | .rd a _ => a.wf
  | .command (.illegal _) => false
  | .command _ => true
  | .setmsg bytes => decide (bytes.length ≤ 14)
  | .setcw bytes => decide (bytes.length ≤ 26)
  | .rdmat x y => decide (x ≤ 20) && decide (y ≤ 20)

/-- `WR base+i, b(i)` for each byte of a list, in order. -/
def writeRun (base : Nat) (bytes : List Byte) : List HostEvent :=
  bytes.zipIdx.map fun p => .wr (BitVec.ofNat 10 (base + p.2)) p.1

/-- The bus accesses of a statement (R86, R87). An annotation adds none. -/
def Stmt.accesses : Stmt → List HostEvent
  | .wr a b => [.wr a.addr b]
  | .rd a _ => [.rd a.addr]
  | .command i => [.wr cmdAddr (encodeCommand i)]
  | .setmsg bytes => .wr (RegName.msglen.number) (BitVec.ofNat 8 bytes.length) :: writeRun 0x010 bytes
  | .setcw bytes => writeRun 0x020 bytes
  | .rdmat x y => [.rd (BitVec.ofNat 10 (0x100 + 21 * y + x))]

/-- "A program's encoding is its list of (address, data) write pairs and (address) reads, in order" (R88). -/
def assemble (p : List Stmt) : List HostEvent := p.flatMap Stmt.accesses

/-- Load a program from outside: its accesses follow the host's earlier ones (log 1). -/
def State.loadProgram (s : State) (p : List Stmt) : State := s.setPending (s.pending ++ assemble p)

/-- "A host program's run ends when it has issued its last access" (70_reset_and_hazards.md R277); its observation is
then `observed`, and the rest of the state is the block's. DESIGN CHOICE (log 18): R277 counts accesses only, and a reset
still pending after the last access keeps the run from ending until it is served, so the end state is then the reset state.
A program of R86 holds no reset, so the point does not arise for what `assemble` gives. -/
def State.runEnded (s : State) : Bool := s.pending.isEmpty

end Sys2Proof.Machine
end

