-- ==== Sys2Proof/Safety.lean ====
section
/-! DEFINITION. The terms the statements use: which states are good ones, and the spec's rules said a second time
without the meanings' own algorithms (closed forms, polynomial arithmetic, the symbol described module by module). -/

namespace Sys2Proof.Safety

open Sys2Proof.Machine

/-! ### Good states -/

/-- MSGLEN lies in 1..14 (41_encoder.md R120). -/
abbrev LegalLength (s : State) : Prop := 1 ≤ s.msglen.toNat ∧ s.msglen.toNat ≤ 14

/-- No error was raised since the last clear (60_exceptions.md R245). -/
abbrev ErrorFree (s : State) : Prop := s.status = { lenErr := false, cmdErr := false }

/-- CW[16..25] is the remainder of CW[0..15]: not stale (70_reset_and_hazards.md R275, item 1). -/
def EccFresh (s : State) : Prop := eccBlock s.cw = remainder (dataBlock s.cw) Rom.gen

/-- MAT describes the current CW, MSGLEN and CTRL (70_reset_and_hazards.md R275, items 2 and 3). -/
def MatCurrent (s : State) : Prop := s.mat = symbolMatrix s.ctrl s.msglen.toNat s.cw

/-- The reserved addresses of the map (20_memory.md R51, R53). -/
abbrev ReservedAddress (a : Addr) : Prop :=
  (0x007 ≤ a.toNat ∧ a.toNat ≤ 0x00F) ∨ (0x01E ≤ a.toNat ∧ a.toNat ≤ 0x01F)
    ∨ (0x03A ≤ a.toNat ∧ a.toNat ≤ 0x03F) ∨ a.toNat = 0x04B
    ∨ (0x04E ≤ a.toNat ∧ a.toNat ≤ 0x0FF) ∨ 0x2B9 ≤ a.toNat

/-! ### GF(256) as polynomials over bits -/

/-- The carryless product of two bytes before any reduction, as a number of up to 15 bits. -/
def carrylessProduct (x y : Byte) : Nat :=
  (List.range 8).foldl (fun acc i => if y.getLsbD i then acc ^^^ (x.toNat <<< i) else acc) 0

/-- Long division of a number of up to 15 bits by 0x11D = 285: the remainder. -/
def reduceProduct (n : Nat) : Nat :=
  [6, 5, 4, 3, 2, 1, 0].foldl (fun n d => if n.testBit (8 + d) then n ^^^ (285 <<< d) else n) n

/-- x to the power n by square and multiply (40_gf256.md R102 allows it). -/
def powBySquaring (x n : Byte) : Byte :=
  ((List.range 8).foldl
    (fun rb i => (if n.getLsbD i then gfMul rb.1 rb.2 else rb.1, gfMul rb.2 rb.2)) (1#8, x)).1

/-- The value at x of a polynomial whose coefficients stand highest degree first, addition being `^` (42_ecc.md R143). -/
def evalPoly (p : List Byte) (x : Byte) : Byte := p.foldl (fun acc c => gfMul acc x ^^^ c) 0#8

/-- p(x) times (x - r), coefficients highest degree first, - being `^` (42_ecc.md R141). -/
def timesLinear (p : List Byte) (r : Byte) : List Byte :=
  List.zipWith (· ^^^ ·) (p ++ [0#8]) (0#8 :: p.map fun c => gfMul c r)

/-! ### The Codeword Block in closed form -/

/-- The low nibble of a, then the high nibble of b (41_encoder.md R122). -/
def joinNibbles (a b : Byte) : Byte := (a <<< 4) ||| (b >>> 4)

/-- MSG[i], for the closed forms; 0 outside the buffer, where no form looks. -/
def msgByte (msg : Vector Byte 14) (i : Nat) : Byte := msg[i]?.getD 0#8

/-- CW'[i] in closed form, for 1 ≤ L ≤ 14 and i ≤ 15 (41_encoder.md R122, R123). -/
def blockByte (L : Byte) (msg : Vector Byte 14) (i : Nat) : Byte :=
  let n := L.toNat
  if i = 0 then 0x40#8
  else if i = 1 then joinNibbles L (msgByte msg 0)
  else if i ≤ n then joinNibbles (msgByte msg (i - 2)) (msgByte msg (i - 1))
  else if i = n + 1 then msgByte msg (n - 1) <<< 4
  else if (i - (n + 2)) % 2 = 0 then 236#8 else 17#8

/-- Bit n of the message bit string S: 0100, the length, the message, 0000 (41_encoder.md R121). -/
def messageBit (L : Byte) (msg : Vector Byte 14) (n : Nat) : Bool :=
  if n < 4 then n == 1
  else if n < 12 then L.getLsbD (11 - n)
  else if n < 12 + 8 * L.toNat then streamBit msg (n - 12)
  else false

/-! ### The symbol, module by module -/

/-- The inside of the three finders (45_placer.md R191). -/
def FindersDrawn (m : Matrix) : Prop :=
  ∀ o ∈ [(0, 0), (14, 0), (0, 14)], ∀ i ≤ 6, ∀ j ≤ 6,
    m.get (o.1 + i) (o.2 + j) = decide (max ((i : Int) - 3).natAbs ((j : Int) - 3).natAbs ≠ 2)

/-- The separators (45_placer.md R192). -/
def SeparatorsWhite (m : Matrix) : Prop :=
  (∀ k ≤ 7, m.get 7 k = false ∧ m.get k 7 = false)
    ∧ (∀ y ≤ 7, m.get 13 y = false) ∧ (∀ x, 13 ≤ x → x ≤ 20 → m.get x 7 = false)
    ∧ (∀ y, 13 ≤ y → y ≤ 20 → m.get 7 y = false) ∧ (∀ x ≤ 7, m.get x 13 = false)

/-- The timing patterns and the dark module (45_placer.md R193). -/
def TimingDrawn (m : Matrix) : Prop :=
  (∀ k, 8 ≤ k → k ≤ 12 → m.get k 6 = decide (k % 2 = 0) ∧ m.get 6 k = decide (k % 2 = 0))
    ∧ m.get 8 13 = true

/-- The (x, y) of FMT bit i in copy 1 (45_placer.md R194). -/
def formatPlace1 (i : Nat) : Nat × Nat :=
  if i ≤ 5 then (8, i) else if i = 6 then (8, 7) else if i = 7 then (8, 8) else if i = 8 then (7, 8)
  else (14 - i, 8)

/-- The (x, y) of FMT bit i in copy 2 (45_placer.md R194). -/
def formatPlace2 (i : Nat) : Nat × Nat := if i ≤ 7 then (20 - i, 8) else (8, 6 + i)

/-- A format copy holds FMT = 0x5412 (43_format.md R160, R162). -/
def FormatDrawn (place : Nat → Nat × Nat) (m : Matrix) : Prop :=
  ∀ i ≤ 14, m.get (place i).1 (place i).2 = (0x5412#15).getLsbD i

/-- A format copy is left white (45_placer.md R194). -/
def FormatWhite (place : Nat → Nat × Nat) (m : Matrix) : Prop :=
  ∀ i ≤ 14, m.get (place i).1 (place i).2 = false

/-- Everything PLACE draws whatever the codeword is (45_placer.md R191 to R194). -/
def FixedPatterns (fmt2En : Bool) (m : Matrix) : Prop :=
  FindersDrawn m ∧ SeparatorsWhite m ∧ TimingDrawn m ∧ FormatDrawn formatPlace1 m
    ∧ (fmt2En = true → FormatDrawn formatPlace2 m) ∧ (fmt2En = false → FormatWhite formatPlace2 m)

/-- The module that carries data bit k. -/
def carrier (k : Nat) : Nat × Nat := traversal.getD k (0, 0)

/-- k ∈ E(L) (44_masker.md R171). -/
def Exempt (L k : Nat) : Prop := k ≤ 3 ∨ (12 + 8 * L ≤ k ∧ k ≤ 15 + 8 * L)

/-- Data bit k is inverted: an even coordinate sum, and not exempt (44_masker.md R170, R172). -/
def Inverted (maskExempt : Bool) (L k : Nat) : Prop :=
  ((carrier k).1 + (carrier k).2) % 2 = 0 ∧ ¬ (maskExempt = true ∧ Exempt L k)

/-- The 208 data modules carry the codeword's bits, masked (45_placer.md R198, 44_masker.md R172). -/
def DataPlaced (c : Ctrl) (L : Nat) (cw : Vector Byte 26) (m : Matrix) : Prop :=
  ∀ k < 208,
    (Inverted c.maskExempt L k → m.get (carrier k).1 (carrier k).2 = !streamBit cw k)
      ∧ (¬ Inverted c.maskExempt L k → m.get (carrier k).1 (carrier k).2 = streamBit cw k)

/-- The matrix the rules of 45_placer.md describe for a codeword. -/
def IsSymbol (c : Ctrl) (L : Nat) (cw : Vector Byte 26) (m : Matrix) : Prop :=
  FixedPatterns c.fmt2En m ∧ DataPlaced c L cw m

/-- The invariant of MAT: blank since reset, or a whole symbol's fixed patterns, with either setting of the second
format copy (10_state.md R35, 45_placer.md R200). -/
def MatWellFormed (s : State) : Prop :=
  s.mat = Matrix.blank ∨ ∃ fmt2En, FixedPatterns fmt2En s.mat

/-- All module coordinates. -/
def grid : List (Nat × Nat) := (List.range 21).flatMap fun y => (List.range 21).map fun x => (x, y)

/-- The traversal as the table of 45_placer.md R197: row n lists the modules that carry CW[n]. -/
def traversalTable : List (List (Nat × Nat)) :=
  [[(20,20), (19,20), (20,19), (19,19), (20,18), (19,18), (20,17), (19,17)],
   [(20,16), (19,16), (20,15), (19,15), (20,14), (19,14), (20,13), (19,13)],
   [(20,12), (19,12), (20,11), (19,11), (20,10), (19,10), (20,9), (19,9)],
   [(18,9), (17,9), (18,10), (17,10), (18,11), (17,11), (18,12), (17,12)],
   [(18,13), (17,13), (18,14), (17,14), (18,15), (17,15), (18,16), (17,16)],
   [(18,17), (17,17), (18,18), (17,18), (18,19), (17,19), (18,20), (17,20)],
   [(16,20), (15,20), (16,19), (15,19), (16,18), (15,18), (16,17), (15,17)],
   [(16,16), (15,16), (16,15), (15,15), (16,14), (15,14), (16,13), (15,13)]]
  ++
  [[(16,12), (15,12), (16,11), (15,11), (16,10), (15,10), (16,9), (15,9)],
   [(14,9), (13,9), (14,10), (13,10), (14,11), (13,11), (14,12), (13,12)],
   [(14,13), (13,13), (14,14), (13,14), (14,15), (13,15), (14,16), (13,16)],
   [(14,17), (13,17), (14,18), (13,18), (14,19), (13,19), (14,20), (13,20)],
   [(12,20), (11,20), (12,19), (11,19), (12,18), (11,18), (12,17), (11,17)],
   [(12,16), (11,16), (12,15), (11,15), (12,14), (11,14), (12,13), (11,13)],
   [(12,12), (11,12), (12,11), (11,11), (12,10), (11,10), (12,9), (11,9)],
   [(12,8), (11,8), (12,7), (11,7), (12,5), (11,5), (12,4), (11,4)],
   [(12,3), (11,3), (12,2), (11,2), (12,1), (11,1), (12,0), (11,0)]]
  ++
  [[(10,0), (9,0), (10,1), (9,1), (10,2), (9,2), (10,3), (9,3)],
   [(10,4), (9,4), (10,5), (9,5), (10,7), (9,7), (10,8), (9,8)],
   [(10,9), (9,9), (10,10), (9,10), (10,11), (9,11), (10,12), (9,12)],
   [(10,13), (9,13), (10,14), (9,14), (10,15), (9,15), (10,16), (9,16)],
   [(10,17), (9,17), (10,18), (9,18), (10,19), (9,19), (10,20), (9,20)],
   [(8,12), (7,12), (8,11), (7,11), (8,10), (7,10), (8,9), (7,9)],
   [(5,9), (4,9), (5,10), (4,10), (5,11), (4,11), (5,12), (4,12)],
   [(3,12), (2,12), (3,11), (2,11), (3,10), (2,10), (3,9), (2,9)],
   [(1,9), (0,9), (1,10), (0,10), (1,11), (0,11), (1,12), (0,12)]]

end Sys2Proof.Safety
end

