-- ==== Sys2Proof/Certificates/Slice0/Obligations.lean ====
section
/-! DEFINITION. The statements for the provers. Each docstring names the rule of spec/ that is formalised. A statement
about a command says for every state that `exec` answers a next state, and which; bytes of the window are read with
`memRead`. `serve e s` is one host event e taking effect at s. -/

open Sys2Proof Sys2Proof.Machine Sys2Proof.Safety

/-! ### Encoding and the step -/

/-- 30_encoding.md R82: the opcode map, byte by byte. -/
def Obligations.DecodeFollowsOpcodeMap : Prop :=
  decodeCommand 0x00#8 = .nop ∧ decodeCommand 0x01#8 = .gfMul ∧ decodeCommand 0x02#8 = .gfPow
    ∧ decodeCommand 0x03#8 = .maskQ ∧ decodeCommand 0x04#8 = .encode ∧ decodeCommand 0x05#8 = .eccRem
    ∧ decodeCommand 0x06#8 = .place ∧ decodeCommand 0x07#8 = .run ∧ decodeCommand 0x08#8 = .clrerr
    ∧ ∀ c : Byte, 0x09 ≤ c.toNat → decodeCommand c = .illegal c

/-- 30_encoding.md R80, R85, R88 (model's encoder): decode and encode agree in both directions. -/
def Obligations.DecodeEncodeAgree : Prop :=
  (∀ i : Instr, i.wf = true → ∀ rest : List Byte, decode (encode i ++ rest) = .ok (i, rest))
    ∧ (∀ c : Byte, (decodeCommand c).wf = true ∧ encodeCommand (decodeCommand c) = c)
    ∧ ∀ i j : Instr, i.wf = true → j.wf = true → encodeCommand i = encodeCommand j → i = j

/-- 10_state.md R25, 20_memory.md R62, with the host's queue of log 1: when the host's next event writes a byte to CMD
that decodes to a command, the step is that command at the state with the event taken off the queue. -/
def Obligations.StepRunsDecodedCommand : Prop :=
  ∀ (s : State) (v : Byte) (rest : List HostEvent) (i : Instr),
    s.pending = .wr 0x002#10 v :: rest → decode [v] = .ok (i, []) → i.wf = true →
    step s = exec i { s with pending := rest }

/-- 20_memory.md R62, 60_exceptions.md R256, with the model's host queue: events take effect one at a time in order, and
with none pending the block holds its state. Model's choices: the queue (log 1), the idle step (log 3), and, where the event
is a reset, `t.pending = rest`, which holds because `hardReset` keeps the host's queue (log 4). -/
def Obligations.StepServesEventsInOrder : Prop :=
  (∀ (s : State) (e : HostEvent) (rest : List HostEvent), s.pending = e :: rest →
      ∃ t, step s = .next t ∧ serve e { s with pending := rest } = .next t ∧ t.pending = rest)
    ∧ ∀ s : State, s.pending = [] → step s = .next s

/-- log 1, log 14: the word the host supplies is the very next command that runs. -/
def Obligations.FetchWordRunsNext : Prop :=
  ∀ (s : State) (w : Nat), w < 256 →
    decodeTableWord 8 w = some (decodeCommand (BitVec.ofNat 8 w))
      ∧ step (s.withFetchWord 8 w) = exec (decodeCommand (BitVec.ofNat 8 w)) s

/-- 30_encoding.md R87: the pseudo-statements are the statements they expand to. -/
def Obligations.PseudoStatementsExpand : Prop :=
  (∀ i : Instr, (Stmt.command i).accesses = (Stmt.wr (.reg .cmd) (encodeCommand i)).accesses)
    ∧ (∀ bytes : List Byte, bytes.length ≤ 14 →
        (Stmt.setmsg bytes).accesses =
          assemble (.wr (.reg .msglen) (BitVec.ofNat 8 bytes.length)
            :: bytes.zipIdx.map fun p => .wr (.msg p.2) p.1))
    ∧ (∀ bytes : List Byte, bytes.length ≤ 26 →
        (Stmt.setcw bytes).accesses = assemble (bytes.zipIdx.map fun p => .wr (.cw p.2) p.1))
    ∧ ∀ x y : Nat, x ≤ 20 → y ≤ 20 →
        (Stmt.rdmat x y).accesses = (Stmt.rd (.number (0x100 + 21 * y + x)) none).accesses

/-! ### The register window -/

/-- 20_memory.md R55, R52: what each address reads as, MAT row-major from 0x100; a read changes no state. -/
def Obligations.WindowReadsNamedLocations : Prop :=
  ∀ s : State,
    (∀ n < 8, (memRead s 0x000#10).getLsbD n
        = ((n == 0 && s.ctrl.maskExempt) || (n == 1 && s.ctrl.fmt2En)))
    ∧ (∀ n < 8, (memRead s 0x001#10).getLsbD n
        = ((n == 0 && s.status.lenErr) || (n == 1 && s.status.cmdErr)))
    ∧ memRead s 0x002#10 = 0x00#8 ∧ memRead s 0x003#10 = s.msglen ∧ memRead s 0x004#10 = s.opa
    ∧ memRead s 0x005#10 = s.opb ∧ memRead s 0x006#10 = s.res
    ∧ (∀ (i : Nat) (h : i < 14), memRead s (BitVec.ofNat 10 (0x010 + i)) = s.msg[i])
    ∧ (∀ (i : Nat) (h : i < 26), memRead s (BitVec.ofNat 10 (0x020 + i)) = s.cw[i])
    ∧ (∀ (j : Nat) (h : j < 11), memRead s (BitVec.ofNat 10 (0x040 + j))
        = (#v[1#8, 216#8, 194#8, 159#8, 111#8, 199#8, 94#8, 95#8, 113#8, 157#8, 193#8])[j])
    ∧ memRead s 0x04C#10 = 0x54#8 ∧ memRead s 0x04D#10 = 0x12#8
    ∧ (∀ x ≤ 20, ∀ y ≤ 20,
        (s.mat.get x y = false → memRead s (BitVec.ofNat 10 (0x100 + 21 * y + x)) = 0x00#8)
        ∧ (s.mat.get x y = true → memRead s (BitVec.ofNat 10 (0x100 + 21 * y + x)) = 0x01#8))
    ∧ (∀ a : Addr, ReservedAddress a → memRead s a = 0x00#8)
    ∧ ∀ a : Addr, ∃ t, serve (.rd a) s = .next t ∧ ∀ b : Addr, memRead t b = memRead s b

/-- 20_memory.md R53: reserved addresses read 0x00, ignore writes and set no STATUS bit. -/
def Obligations.ReservedAddressesReadZero : Prop :=
  ∀ (s : State) (a : Addr) (v : Byte), ReservedAddress a →
    memRead s a = 0x00#8 ∧ serve (.wr a v) s = .next s
      ∧ ∃ t, serve (.rd a) s = .next t ∧ t.status = s.status ∧ ∀ b : Addr, memRead t b = memRead s b

/-- 20_memory.md R54: writes to read-only locations have no effect and set no STATUS bit. -/
def Obligations.ReadOnlyWritesIgnored : Prop :=
  ∀ (s : State) (a : Addr) (v : Byte),
    (a = 0x001#10 ∨ a = 0x006#10 ∨ (0x040 ≤ a.toNat ∧ a.toNat ≤ 0x04A) ∨ a = 0x04C#10 ∨ a = 0x04D#10
      ∨ (0x100 ≤ a.toNat ∧ a.toNat ≤ 0x2B8)) →
    serve (.wr a v) s = .next s

/-- 20_memory.md R56: what a host write does, address by address. -/
def Obligations.HostWriteByAddress : Prop :=
  ∀ (s : State) (v : Byte),
    serve (.wr 0x000#10 v) s = .next { s with ctrl := { maskExempt := v.getLsbD 0, fmt2En := v.getLsbD 1 } }
    ∧ serve (.wr 0x002#10 v) s = exec (decodeCommand v) s
    ∧ serve (.wr 0x003#10 v) s = .next { s with msglen := v }
    ∧ serve (.wr 0x004#10 v) s = .next { s with opa := v }
    ∧ serve (.wr 0x005#10 v) s = .next { s with opb := v }
    ∧ (∀ (i : Nat) (h : i < 14), serve (.wr (BitVec.ofNat 10 (0x010 + i)) v) s
        = .next { s with msg := s.msg.set i v })
    ∧ (∀ (i : Nat) (h : i < 26), serve (.wr (BitVec.ofNat 10 (0x020 + i)) v) s
        = .next { s with cw := s.cw.set i v })
    ∧ ∀ a : Addr, a ≠ 0x000#10 → a ≠ 0x002#10 → a ≠ 0x003#10 → a ≠ 0x004#10 → a ≠ 0x005#10 →
        ¬ (0x010 ≤ a.toNat ∧ a.toNat ≤ 0x01D) → ¬ (0x020 ≤ a.toNat ∧ a.toNat ≤ 0x039) →
        serve (.wr a v) s = .next s

/-- 10_state.md R22: a write to CTRL keeps v[0] and v[1]; a read gives them back with bits 7:2 zero. -/
def Obligations.CtrlKeepsTwoBits : Prop :=
  ∀ (s : State) (v : Byte), ∃ t,
    serve (.wr 0x000#10 v) s = .next t ∧ t.ctrl.maskExempt = v.getLsbD 0 ∧ t.ctrl.fmt2En = v.getLsbD 1
      ∧ memRead t 0x000#10 = v &&& 0x03#8
      ∧ memRead s 0x000#10
          = BitVec.zeroExtend 8 (BitVec.ofBool s.ctrl.fmt2En ++ BitVec.ofBool s.ctrl.maskExempt)

/-- 20_memory.md R51, R56 together: after a write other than to CMD the written address reads as the byte where it is
host-writable (CTRL: its two bits), and every other address reads as before. -/
def Obligations.ReadAfterWrite : Prop :=
  ∀ (s t : State) (a : Addr) (v : Byte), a ≠ 0x002#10 → serve (.wr a v) s = .next t →
    ((a = 0x003#10 ∨ a = 0x004#10 ∨ a = 0x005#10 ∨ (0x010 ≤ a.toNat ∧ a.toNat ≤ 0x01D)
        ∨ (0x020 ≤ a.toNat ∧ a.toNat ≤ 0x039)) → memRead t a = v)
      ∧ (a = 0x000#10 → memRead t a = v &&& 0x03#8)
      ∧ ∀ b : Addr, b ≠ a → memRead t b = memRead s b

/-- 20_memory.md R55, with the model's log of reads (log 2): a read returns the byte of its address and changes nothing else. -/
def Obligations.HostReadChangesNoState : Prop :=
  ∀ (s : State) (a : Addr), ∃ t,
    serve (.rd a) s = .next t ∧ t = { s with observed := s.observed ++ [memRead s a] }
      ∧ ∀ b : Addr, memRead t b = memRead s b

/-- 10_state.md R38: what every address reads as in the reset state. -/
def Obligations.ResetValues : Prop :=
  ∀ a : Addr,
    memRead State.reset a =
      if a = 0x000#10 then 0x01#8
      else if a = 0x04C#10 then 0x54#8
      else if a = 0x04D#10 then 0x12#8
      else if h : 0x040 ≤ a.toNat ∧ a.toNat ≤ 0x04A then Rom.gen[a.toNat - 0x040]
      else 0x00#8

/-- 70_reset_and_hazards.md section 1 (R270), with reset as a host event (log 4): the reset input gives every address its reset value
from any state. -/
def Obligations.ResetInputRestoresValues : Prop :=
  ∀ s : State, ∃ t, serve .reset s = .next t ∧ ∀ a : Addr, memRead t a = memRead State.reset a

/-! ### The GF(256) unit -/

/-- 40_gf256.md R101. -/
def Obligations.GfMulFieldLaws : Prop :=
  ∀ x y : Byte, gfMul x 0#8 = 0#8 ∧ gfMul x 1#8 = x ∧ gfMul x y = gfMul y x

/-- 40_gf256.md section 1 (R100): `gf_mul` is the carryless product of the two bytes, divided by 0x11D. -/
def Obligations.GfMulIsReducedCarrylessProduct : Prop :=
  ∀ x y : Byte, (gfMul x y).toNat = reduceProduct (carrylessProduct x y)

/-- 42_ecc.md section 2 (R142, R143), field theory: `gf_mul` distributes over `^` and is associative. -/
def Obligations.GfMulIsRingProduct : Prop :=
  ∀ x y z : Byte, gfMul x (y ^^^ z) = gfMul x y ^^^ gfMul x z ∧ gfMul (gfMul x y) z = gfMul x (gfMul y z)

/-- 40_gf256.md R102: the n-fold product with the empty product 1, and square-and-multiply gives the same. -/
def Obligations.GfPowIsRepeatedProduct : Prop :=
  (∀ x : Byte, gfPow x 0#8 = 1#8)
    ∧ (∀ (x : Byte) (n : Nat), n < 255 →
        gfPow x (BitVec.ofNat 8 (n + 1)) = gfMul (gfPow x (BitVec.ofNat 8 n)) x)
    ∧ ∀ x n : Byte, gfPow x n = powBySquaring x n

/-- 40_gf256.md section 1 (R105): the inverse of a nonzero element. -/
def Obligations.GfPow254IsInverse : Prop :=
  ∀ x : Byte, x ≠ 0#8 → gfMul x (gfPow x 254#8) = 1#8

/-- 40_gf256.md section 1 (R106, which the spec marks as derived by evaluation): 2 generates every nonzero element. -/
def Obligations.AlphaGeneratesField : Prop :=
  (∀ m n : Nat, m < 255 → n < 255 → gfPow 2#8 (BitVec.ofNat 8 m) = gfPow 2#8 (BitVec.ofNat 8 n) → m = n)
    ∧ (∀ n : Nat, n < 255 → gfPow 2#8 (BitVec.ofNat 8 n) ≠ 0#8)
    ∧ (∀ x : Byte, x ≠ 0#8 → ∃ n < 255, gfPow 2#8 (BitVec.ofNat 8 n) = x)
    ∧ gfPow 2#8 255#8 = 1#8
    ∧ (∀ x : Byte, x ≠ 0#8 → gfPow x 255#8 = 1#8)
    ∧ (List.range 16).map (fun n => (gfPow 2#8 (BitVec.ofNat 8 n)).toNat)
        = [1, 2, 4, 8, 16, 32, 64, 128, 29, 58, 116, 232, 205, 135, 19, 38]

/-- 40_gf256.md R103: GF_MUL, its effect, its corner cases and example. -/
def Obligations.GfMulCommand : Prop :=
  ∀ s : State, ∃ t, exec .gfMul s = .next t ∧ t.res = gfMul s.opa s.opb ∧ t = { s with res := t.res }
    ∧ ((s.opa = 0#8 ∨ s.opb = 0#8) → t.res = 0#8)
    ∧ (s.opb = 1#8 → t.res = s.opa)
    ∧ (s.opa = 0x80#8 → s.opb = 0x80#8 → t.res = 0x13#8)
    ∧ (s.opa = 0x02#8 → s.opb = 0x80#8 → t.res = 0x1D#8)
    ∧ exec .gfMul { s with opa := s.opb, opb := s.opa } = .next { t with opa := s.opb, opb := s.opa }

/-- 40_gf256.md R104: GF_POW, its effect, its corner cases and example. -/
def Obligations.GfPowCommand : Prop :=
  ∀ s : State, ∃ t, exec .gfPow s = .next t ∧ t.res = gfPow s.opa s.opb ∧ t = { s with res := t.res }
    ∧ (s.opb = 0#8 → t.res = 1#8)
    ∧ (s.opa = 0#8 → s.opb ≠ 0#8 → t.res = 0#8)
    ∧ (s.opa = 1#8 → t.res = 1#8)
    ∧ (s.opb = 1#8 → t.res = s.opa)
    ∧ (s.opb = 255#8 → s.opa ≠ 0#8 → t.res = 1#8)
    ∧ (s.opb = 254#8 → s.opa ≠ 0#8 → gfMul s.opa t.res = 1#8)
    ∧ (s.opa = 0x02#8 → s.opb = 0x08#8 → t.res = 0x1D#8)

/-! ### The masker query -/

/-- 44_masker.md R174: MASK_Q, its effect, its corner cases and example. -/
def Obligations.MaskQCommand : Prop :=
  ∀ s : State, ∃ t, exec .maskQ s = .next t ∧ t = { s with res := t.res }
    ∧ ((s.opa.toNat + s.opb.toNat) % 2 = 0 → t.res = 0x01#8)
    ∧ ((s.opa.toNat + s.opb.toNat) % 2 = 1 → t.res = 0x00#8)
    ∧ (∀ (c : Ctrl) (L : Byte),
        exec .maskQ { s with ctrl := c, msglen := L } = .next { t with ctrl := c, msglen := L })
    ∧ (s.opa = 20#8 → s.opb = 20#8 → t.res = 0x01#8) ∧ (s.opa = 19#8 → s.opb = 20#8 → t.res = 0x00#8)

/-- 10_state.md R27, R28, 20_memory.md R51: the frame of the three commands that write RES (address 0x006). -/
def Obligations.FrameOfResultCommands : Prop :=
  ∀ (i : Instr) (s t : State), i = .gfMul ∨ i = .gfPow ∨ i = .maskQ → exec i s = .next t →
    t.ctrl = s.ctrl ∧ t.status = s.status ∧ t.msglen = s.msglen ∧ t.opa = s.opa ∧ t.opb = s.opb
      ∧ t.msg = s.msg ∧ t.cw = s.cw ∧ t.mat = s.mat ∧ t.pending = s.pending ∧ t.observed = s.observed
      ∧ ∀ a : Addr, a ≠ 0x006#10 → memRead t a = memRead s a

/-! ### The encoder -/

/-- 41_encoder.md R125 with R122's closed forms and R123: ENCODE, its effect, its length error and example. -/
def Obligations.EncodeCommand : Prop :=
  (∀ s : State, LegalLength s → ∃ t, exec .encode s = .next t ∧ t = { s with cw := t.cw }
      ∧ (∀ (i : Nat) (h : i < 16), t.cw[i] = blockByte s.msglen s.msg i)
      ∧ ∀ (i : Nat) (h : i < 26), 16 ≤ i → t.cw[i] = s.cw[i])
    ∧ (∀ s : State, ¬ LegalLength s →
        exec .encode s = .next { s with status := { s.status with lenErr := true } })
    ∧ ∀ s : State, s.msglen = 9#8 →
        s.msg.toList.take 9 = [0x50#8, 0x61#8, 0x67#8, 0x65#8, 0x64#8, 0x4F#8, 0x75#8, 0x74#8, 0x21#8] →
        ∃ t, exec .encode s = .next t ∧ t.cw.toList.take 16
          = [64#8, 149#8, 6#8, 22#8, 118#8, 86#8, 68#8, 247#8, 87#8, 66#8, 16#8, 236#8, 17#8, 236#8, 17#8, 236#8]

/-- 41_encoder.md R121 (and R122's repacking): the bit string of the message, read back from CW most significant bit first. -/
def Obligations.EncodeLaysOutBitString : Prop :=
  ∀ s : State, LegalLength s → ∃ t, exec .encode s = .next t
    ∧ ∀ n < 16 + 8 * s.msglen.toNat, streamBit t.cw n = messageBit s.msglen s.msg n

/-- 41_encoder.md R126: the bytes MSG[L..13] have no effect on any command's result. -/
def Obligations.MessageTailIgnored : Prop :=
  ∀ (i : Instr) (s : State) (m : Vector Byte 14),
    (∀ (j : Nat) (h : j < 14), j < s.msglen.toNat → m[j] = s.msg[j]) →
    ∃ t, exec i s = .next t ∧ exec i { s with msg := m } = .next { t with msg := m }

/-! ### The divider -/

/-- 42_ecc.md R144, R145: ECC_REM, its effect, its corner cases and example. -/
def Obligations.EccRemCommand : Prop :=
  ∀ s : State, ∃ t, exec .eccRem s = .next t ∧ t = { s with cw := t.cw }
    ∧ (∀ (i : Nat) (h : i < 16), t.cw[i] = s.cw[i])
    ∧ eccBlock t.cw = remainder (dataBlock s.cw) Rom.gen
    ∧ (∀ e : Vector Byte 10, exec .eccRem { s with cw := withEcc s.cw e } = .next t)
    ∧ (∀ L : Byte, exec .eccRem { s with msglen := L } = .next { t with msglen := L })
    ∧ (dataBlock s.cw = Vector.replicate 16 0#8 → eccBlock t.cw = Vector.replicate 10 0#8)
    ∧ (dataBlock s.cw = #v[64#8, 149#8, 6#8, 22#8, 118#8, 86#8, 68#8, 247#8, 87#8, 66#8, 16#8, 236#8, 17#8, 236#8, 17#8, 236#8]
        → eccBlock t.cw = #v[74#8, 190#8, 29#8, 185#8, 203#8, 209#8, 185#8, 63#8, 7#8, 116#8])

/-- 42_ecc.md section 2 (R143): the remainder is linear over `^`, and the one-hot block gives GEN[1..10]. -/
def Obligations.RemainderIsLinear : Prop :=
  (∀ b c : Vector Byte 16,
      remainder (Vector.zipWith (· ^^^ ·) b c) Rom.gen
        = Vector.zipWith (· ^^^ ·) (remainder b Rom.gen) (remainder c Rom.gen))
    ∧ remainder ((Vector.replicate 16 0#8).set 15 1#8) Rom.gen
        = #v[216#8, 194#8, 159#8, 111#8, 199#8, 94#8, 95#8, 113#8, 157#8, 193#8]

/-- 42_ecc.md section 1 (R141, documentation from general knowledge; log 6): GEN is the product of (x - α^i), i = 0..9, monic, with roots α^0 .. α^9. -/
def Obligations.GeneratorIsProductOfRoots : Prop :=
  Rom.gen.toList = (List.range 10).foldl (fun p i => timesLinear p (gfPow 2#8 (BitVec.ofNat 8 i))) [1#8]
    ∧ Rom.gen[0] = 1#8
    ∧ ∀ i < 10, evalPoly Rom.gen.toList (gfPow 2#8 (BitVec.ofNat 8 i)) = 0#8

/-- 42_ecc.md section 2 (R143), the error-correcting property: after ECC_REM, whatever block CW[0..15] holds, the Full
Codeword read as a polynomial with CW[0] the x^25 coefficient is zero at α^0 .. α^9. -/
def Obligations.FullCodewordVanishesAtRoots : Prop :=
  ∀ s : State, ∃ t, exec .eccRem s = .next t
    ∧ ∀ i < 10, evalPoly t.cw.toList (gfPow 2#8 (BitVec.ofNat 8 i)) = 0#8

/-- 10_state.md R30, 20_memory.md R51: the frame of the two commands that write CW only. ENCODE stores to 0x020..0x02F when the
length is legal and else changes STATUS alone; ECC_REM stores to 0x030..0x039. -/
def Obligations.FrameOfCodewordCommands : Prop :=
  (∀ s t : State, exec .encode s = .next t →
      t.ctrl = s.ctrl ∧ t.msglen = s.msglen ∧ t.opa = s.opa ∧ t.opb = s.opb ∧ t.res = s.res ∧ t.msg = s.msg
        ∧ t.mat = s.mat ∧ t.pending = s.pending ∧ t.observed = s.observed ∧ t.status.cmdErr = s.status.cmdErr
        ∧ (LegalLength s → t.status = s.status
            ∧ ∀ a : Addr, ¬ (0x020 ≤ a.toNat ∧ a.toNat ≤ 0x02F) → memRead t a = memRead s a)
        ∧ (¬ LegalLength s → ∀ a : Addr, a ≠ 0x001#10 → memRead t a = memRead s a))
    ∧ ∀ s t : State, exec .eccRem s = .next t →
      t.ctrl = s.ctrl ∧ t.status = s.status ∧ t.msglen = s.msglen ∧ t.opa = s.opa ∧ t.opb = s.opb ∧ t.res = s.res
        ∧ t.msg = s.msg ∧ t.mat = s.mat ∧ t.pending = s.pending ∧ t.observed = s.observed
        ∧ ∀ a : Addr, ¬ (0x030 ≤ a.toNat ∧ a.toNat ≤ 0x039) → memRead t a = memRead s a

/-! ### The placer -/

/-- 45_placer.md section 3 (R197, which the spec marks as derived by evaluation): the traversal is the table; T[8n + b] is entry b of row n. -/
def Obligations.TraversalIsTable : Prop :=
  traversalTable.length = 26
    ∧ (∀ n < 26, ∀ b < 8, carrier (8 * n + b) = (traversalTable.getD n []).getD b (0, 0))
    ∧ ∀ (cw : Vector Byte 26) (n b : Nat) (h : n < 26), b < 8 →
        streamBit cw (8 * n + b) = cw[n].getLsbD (7 - b)

/-- 45_placer.md section 3 (R195, R196, R201): the 208 modules of the traversal are the modules that are not reserved, each visited
once, from (20, 20); 233 modules are reserved. -/
def Obligations.TraversalVisitsEachDataModuleOnce : Prop :=
  traversal.length = 208 ∧ traversal.Nodup ∧ carrier 0 = (20, 20)
    ∧ (∀ x < 21, ∀ y < 21, (x, y) ∈ traversal ↔ reserved x y = false)
    ∧ (∀ p ∈ traversal, p.1 < 21 ∧ p.2 < 21)
    ∧ (grid.filter fun p => reserved p.1 p.2).length = 233

/-- 45_placer.md R191, R192, and section 2 for the timing patterns (log 7): PLACE draws the finders, the separators, the timing patterns and the dark module. -/
def Obligations.PlaceDrawsFixedPatterns : Prop :=
  ∀ s : State, LegalLength s → ∃ t, exec .place s = .next t
    ∧ FindersDrawn t.mat ∧ SeparatorsWhite t.mat ∧ TimingDrawn t.mat

/-- 45_placer.md R194: PLACE writes FMT to copy 1 always and to copy 2 only when FMT2_EN = 1, else copy 2 is white; no module of
either copy carries data. -/
def Obligations.PlaceWritesFormatCopies : Prop :=
  (∀ s : State, LegalLength s → ∃ t, exec .place s = .next t ∧ FormatDrawn formatPlace1 t.mat
      ∧ (s.ctrl.fmt2En = true → FormatDrawn formatPlace2 t.mat)
      ∧ (s.ctrl.fmt2En = false → FormatWhite formatPlace2 t.mat))
    ∧ ∀ i ≤ 14, formatPlace1 i ∉ traversal ∧ formatPlace2 i ∉ traversal
        ∧ reserved (formatPlace1 i).1 (formatPlace1 i).2 = true
        ∧ reserved (formatPlace2 i).1 (formatPlace2 i).2 = true

/-- 45_placer.md R198, 44_masker.md R172: PLACE puts data bit k at T[k], inverted where the sum of the coordinates is even and the bit
is not exempt. -/
def Obligations.PlaceMasksDataBits : Prop :=
  ∀ s : State, LegalLength s → ∃ t, exec .place s = .next t
    ∧ DataPlaced s.ctrl s.msglen.toNat s.cw t.mat

/-- 45_placer.md R199: PLACE, its effect, its length error (whatever MASK_EXEMPT is) and example. -/
def Obligations.PlaceCommand : Prop :=
  (∀ s : State, LegalLength s → ∃ t, exec .place s = .next t ∧ t = { s with mat := t.mat }
      ∧ IsSymbol s.ctrl s.msglen.toNat s.cw t.mat
      ∧ ∀ m : Matrix, exec .place { s with mat := m } = .next t)
    ∧ (∀ s : State, ¬ LegalLength s →
        exec .place s = .next { s with status := { s.status with lenErr := true } })
    ∧ ∀ s : State, s.msglen = 9#8 → s.ctrl = { maskExempt := true, fmt2En := false } →
        s.cw.toList = [64#8, 149#8, 6#8, 22#8, 118#8, 86#8, 68#8, 247#8, 87#8, 66#8, 16#8, 236#8, 17#8, 236#8, 17#8, 236#8]
          ++ [74#8, 190#8, 29#8, 185#8, 203#8, 209#8, 185#8, 63#8, 7#8, 116#8] →
        ∃ t, exec .place s = .next t
          ∧ ∀ x < 21, t.mat.get x 0 = (0x1FC07F#21).getLsbD (20 - x)

/-- 45_placer.md section 1 (R190) to section 4 (R201): the rules determine all 441 modules. A matrix has the fixed patterns and the
masked data bits of a codeword exactly when it is the one PLACE builds. -/
def Obligations.SymbolRulesDetermineMatrix : Prop :=
  ∀ (c : Ctrl) (L : Nat) (cw : Vector Byte 26) (m : Matrix), IsSymbol c L cw m ↔ m = symbolMatrix c L cw

/-- 44_masker.md section 1 (R176, which the spec marks as derived by evaluation): the masking-exemption properties. -/
def Obligations.MaskExemptionProperties : Prop :=
  ∀ s : State, LegalLength s → s.ctrl.maskExempt = true →
    ∃ t u, exec .place s = .next t
      ∧ exec .place { s with ctrl := { s.ctrl with maskExempt := false } } = .next u
      ∧ (∀ k < 208, Exempt s.msglen.toNat k → t.mat.get (carrier k).1 (carrier k).2 = streamBit s.cw k)
      ∧ (∀ k < 208, 128 ≤ k → t.mat.get (carrier k).1 (carrier k).2
          = (streamBit s.cw k ^^ decide (((carrier k).1 + (carrier k).2) % 2 = 0)))
      ∧ (∀ k ≤ 3, ((carrier k).1 + (carrier k).2) % 2 = 0 ↔ k = 0 ∨ k = 3)
      ∧ ((List.range 208).filter fun k => decide (12 + 8 * s.msglen.toNat ≤ k ∧ k ≤ 15 + 8 * s.msglen.toNat)
          && decide (((carrier k).1 + (carrier k).2) % 2 = 0)).length = 2
      ∧ (grid.filter fun p => t.mat.get p.1 p.2 != u.mat.get p.1 p.2).length = 4
      ∧ ((List.range 208).filter fun k => k / 8 == 0
          && t.mat.get (carrier k).1 (carrier k).2 != u.mat.get (carrier k).1 (carrier k).2).length = 2
      ∧ ((List.range 208).filter fun k => k / 8 == s.msglen.toNat + 1
          && t.mat.get (carrier k).1 (carrier k).2 != u.mat.get (carrier k).1 (carrier k).2).length = 2

/-- 10_state.md R35, 45_placer.md R200, 20_memory.md R51: the frame of the two commands that write MAT (0x100..0x2B8); RUN also stores
to CW (0x020..0x039). On an illegal length both change STATUS alone. -/
def Obligations.FrameOfMatrixCommands : Prop :=
  ∀ (i : Instr) (s t : State), i = .place ∨ i = .run → exec i s = .next t →
    t.ctrl = s.ctrl ∧ t.msglen = s.msglen ∧ t.opa = s.opa ∧ t.opb = s.opb ∧ t.res = s.res ∧ t.msg = s.msg
      ∧ t.pending = s.pending ∧ t.observed = s.observed ∧ t.status.cmdErr = s.status.cmdErr
      ∧ (i = .place → t.cw = s.cw)
      ∧ (LegalLength s → t.status = s.status
          ∧ ∀ a : Addr, ¬ (0x100 ≤ a.toNat ∧ a.toNat ≤ 0x2B8) →
              ¬ (i = .run ∧ 0x020 ≤ a.toNat ∧ a.toNat ≤ 0x039) → memRead t a = memRead s a)
      ∧ (¬ LegalLength s → ∀ a : Addr, a ≠ 0x001#10 → memRead t a = memRead s a)

/-! ### Control commands and errors -/

/-- 46_control.md R220: NOP changes no state. -/
def Obligations.NopCommand : Prop :=
  ∀ s : State, exec .nop s = .next s ∧ serve (.wr 0x002#10 0x00#8) s = .next s

/-- 46_control.md, the text of RUN (R221): RUN writes CW and MAT as its pseudocode says, and its example. The two comparisons
with the sequence of commands are R221's corner cases, the spec's own inference (it marks the equality as derived): RUN is
ENCODE, then ECC_REM, then PLACE for a legal length; for an illegal one it raises LEN_ERR once and writes nothing, where
that sequence would also run ECC_REM on the old CW. -/
def Obligations.RunIsPipeline : Prop :=
  (∀ s : State, LegalLength s → ∃ a b t, exec .encode s = .next a ∧ exec .eccRem a = .next b
      ∧ exec .place b = .next t ∧ exec .run s = .next t
      ∧ t = { s with cw := t.cw, mat := t.mat }
      ∧ (∀ (i : Nat) (h : i < 16), t.cw[i] = blockByte s.msglen s.msg i)
      ∧ eccBlock t.cw = remainder (dataBlock t.cw) Rom.gen
      ∧ IsSymbol s.ctrl s.msglen.toNat t.cw t.mat)
    ∧ (∀ s : State, ¬ LegalLength s →
        exec .run s = .next { s with status := { s.status with lenErr := true } }
        ∧ ∃ a b t, exec .encode s = .next a ∧ exec .eccRem a = .next b ∧ exec .place b = .next t
          ∧ exec .eccRem s = .next { t with status := s.status })
    ∧ ∀ s : State, s.msglen = 9#8 → s.ctrl = { maskExempt := true, fmt2En := false } →
        s.msg.toList.take 9 = [0x50#8, 0x61#8, 0x67#8, 0x65#8, 0x64#8, 0x4F#8, 0x75#8, 0x74#8, 0x21#8] →
        ∃ t, exec .run s = .next t
          ∧ t.cw.toList = [64#8, 149#8, 6#8, 22#8, 118#8, 86#8, 68#8, 247#8, 87#8, 66#8, 16#8, 236#8, 17#8, 236#8, 17#8, 236#8]
              ++ [74#8, 190#8, 29#8, 185#8, 203#8, 209#8, 185#8, 63#8, 7#8, 116#8]
          ∧ t.mat.toList.map (fun row => row.toList.foldl (fun n b => 2 * n + b.toNat) 0)
              = [0x1FC07F, 0x105741, 0x17495D, 0x174C5D, 0x17555D, 0x104141, 0x1FD57F, 0x000700, 0x154E00, 0x1C8C1B, 0x08C97F]
                ++ [0x1B1C82, 0x14CD31, 0x001690, 0x1FC6FB, 0x104F10, 0x174A20, 0x174462, 0x174D3D, 0x104860, 0x1FCD72]

/-- 70_reset_and_hazards.md section 3 (R275): RUN meets the sequencing obligations by construction, and a later host write of CW, MSGLEN
or CTRL leaves MAT as it was. -/
def Obligations.RunLeavesFreshSymbol : Prop :=
  (∀ s : State, LegalLength s → ∃ t, exec .run s = .next t ∧ EccFresh t ∧ MatCurrent t)
    ∧ ∀ (s t : State) (a : Addr) (v : Byte), a ≠ 0x002#10 → serve (.wr a v) s = .next t → t.mat = s.mat

/-- 46_control.md R222: CLRERR clears both STATUS bits and changes nothing else. -/
def Obligations.ClrerrCommand : Prop :=
  ∀ s : State, exec .clrerr s = .next { s with status := { lenErr := false, cmdErr := false } }
    ∧ (ErrorFree s → exec .clrerr s = .next s)
    ∧ ∀ (i : Instr) (t : State), exec i s = .next t →
        ((s.status.lenErr = true ∧ t.status.lenErr = false) ∨ (s.status.cmdErr = true ∧ t.status.cmdErr = false)) →
        i = .clrerr

/-- 46_control.md R223, 60_exceptions.md R242: a code with no command sets CMD_ERR and changes nothing else. -/
def Obligations.IllegalCodeSetsCmdErr : Prop :=
  ∀ (s : State) (c : Byte), 0x09 ≤ c.toNat →
    exec (.illegal c) s = .next { s with status := { s.status with cmdErr := true } }
      ∧ serve (.wr 0x002#10 c) s = .next { s with status := { s.status with cmdErr := true } }

/-- 10_state.md R23, 20_memory.md R51: the frame of the commands that write at most STATUS (address 0x001). -/
def Obligations.FrameOfStatusCommands : Prop :=
  ∀ (i : Instr) (s t : State), i = .nop ∨ i = .clrerr ∨ (∃ c, i = .illegal c) → exec i s = .next t →
    t.ctrl = s.ctrl ∧ t.msglen = s.msglen ∧ t.opa = s.opa ∧ t.opb = s.opb ∧ t.res = s.res ∧ t.msg = s.msg
      ∧ t.cw = s.cw ∧ t.mat = s.mat ∧ t.pending = s.pending ∧ t.observed = s.observed
      ∧ (i = .nop → t.status = s.status)
      ∧ ((∃ c, i = .illegal c) → t.status.lenErr = s.status.lenErr)
      ∧ ∀ a : Addr, a ≠ 0x001#10 → memRead t a = memRead s a

/-- 60_exceptions.md R241: ENCODE, PLACE and RUN raise LEN_ERR when MSGLEN is not in 1..14, before writing anything. -/
def Obligations.LengthErrorChangesStatusOnly : Prop :=
  ∀ (i : Instr) (s : State), i = .encode ∨ i = .place ∨ i = .run →
    s.msglen.toNat = 0 ∨ 15 ≤ s.msglen.toNat →
    exec i s = .next { s with status := { s.status with lenErr := true } }

/-- 60_exceptions.md R245, 10_state.md R39: STATUS bits stay set until CLRERR or reset, and no result depends on them. -/
def Obligations.StatusIsStickyAndInert : Prop :=
  (∀ (e : HostEvent) (s t : State), serve e s = .next t → e ≠ .reset → e ≠ .wr 0x002#10 0x08#8 →
      (s.status.lenErr = true → t.status.lenErr = true) ∧ (s.status.cmdErr = true → t.status.cmdErr = true))
    ∧ ∀ (i : Instr) (s : State) (st : Status), ∃ t u,
        exec i s = .next t ∧ exec i { s with status := st } = .next u ∧ u = { t with status := u.status }

/-- 10_state.md R24, R23: STATUS changes only as the rules say, and only CLRERR (or reset) clears a bit. -/
def Obligations.StatusChangesOnlyAsRuled : Prop :=
  (∀ (s : State) (v : Byte), serve (.wr 0x001#10 v) s = .next s)
    ∧ ∀ (e : HostEvent) (s t : State), serve e s = .next t →
      (s.status.lenErr = false → t.status.lenErr = true → ¬ LegalLength s
          ∧ (e = .wr 0x002#10 0x04#8 ∨ e = .wr 0x002#10 0x06#8 ∨ e = .wr 0x002#10 0x07#8))
      ∧ (s.status.cmdErr = false → t.status.cmdErr = true → ∃ c : Byte, 0x09 ≤ c.toNat ∧ e = .wr 0x002#10 c)
      ∧ ((s.status.lenErr = true ∧ t.status.lenErr = false) ∨ (s.status.cmdErr = true ∧ t.status.cmdErr = false) →
          e = .wr 0x002#10 0x08#8 ∨ e = .reset)

/-- 60_exceptions.md R247: one command raises at most one error. -/
def Obligations.AtMostOneErrorPerCommand : Prop :=
  ∀ (s t : State) (v : Byte), serve (.wr 0x002#10 v) s = .next t →
    ¬ ((s.status.lenErr = false ∧ t.status.lenErr = true) ∧ (s.status.cmdErr = false ∧ t.status.cmdErr = true))

/-! ### The whole machine -/

/-- 60_exceptions.md section 2 and 20_memory.md section 4, read as log 13 (DEDUCED: nothing stops the machine) and log 3
(DEDUCED: a step with no event pending answers the same state) read them. The statement is the content of those two model's
choices: every step answers a next state. -/
def Obligations.EveryStepCompletes : Prop :=
  ∀ s : State, ∃ t, step s = .next t

/-- 20_memory.md section 3 (R59): every command is idempotent. -/
def Obligations.EveryCommandIdempotent : Prop :=
  ∀ (i : Instr) (s : State), ∃ t, exec i s = .next t ∧ exec i t = .next t

/-- 45_placer.md R200: only PLACE and RUN write MAT, and each rewrites all of it. -/
def Obligations.OnlyPlaceAndRunWriteMat : Prop :=
  (∀ (e : HostEvent) (s t : State), serve e s = .next t → e ≠ .reset → t.mat ≠ s.mat →
      LegalLength s ∧ (e = .wr 0x002#10 0x06#8 ∨ e = .wr 0x002#10 0x07#8))
    ∧ ∀ (i : Instr) (s : State) (m : Matrix), i = .place ∨ i = .run → LegalLength s →
        exec i { s with mat := m } = exec i s

/-- 10_state.md R29, R27, R26, R21: no command writes MSG, MSGLEN, OPA, OPB or CTRL, and only the RES commands write RES (R28). -/
def Obligations.CommandsKeepTheirOperands : Prop :=
  ∀ (i : Instr) (s : State), ∃ t, exec i s = .next t
    ∧ t.msg = s.msg ∧ t.msglen = s.msglen ∧ t.opa = s.opa ∧ t.opb = s.opb ∧ t.ctrl = s.ctrl
    ∧ (t.res ≠ s.res → i = .gfMul ∨ i = .gfPow ∨ i = .maskQ)
    ∧ (t.cw ≠ s.cw → i = .encode ∨ i = .eccRem ∨ i = .run)

/-- 10_state.md section 5 (R35), 45_placer.md sections 2 and 5: an invariant of every step. MAT is blank, as reset leaves it, or holds a
whole symbol's fixed patterns. -/
def Obligations.StepKeepsMatWellFormed : Prop :=
  ∀ s t : State, MatWellFormed s → step s = .next t → MatWellFormed t

/-- 10_state.md section 7 (R38): the invariant holds at reset. -/
def Obligations.ResetMatWellFormed : Prop := MatWellFormed State.reset
end

