-- ==== Sys2Proof/Laws/State.lean ====
section
/-! SUPPORT. One lemma per field per setter of State, true by rfl, so that no proof unfolds a record update. -/

namespace Sys2Proof.Machine

section
variable (s : State) (v : Ctrl)
@[simp] theorem State.setCtrl_ctrl : (s.setCtrl v).ctrl = v := rfl
@[simp] theorem State.setCtrl_status : (s.setCtrl v).status = s.status := rfl
@[simp] theorem State.setCtrl_msglen : (s.setCtrl v).msglen = s.msglen := rfl
@[simp] theorem State.setCtrl_opa : (s.setCtrl v).opa = s.opa := rfl
@[simp] theorem State.setCtrl_opb : (s.setCtrl v).opb = s.opb := rfl
@[simp] theorem State.setCtrl_res : (s.setCtrl v).res = s.res := rfl
@[simp] theorem State.setCtrl_msg : (s.setCtrl v).msg = s.msg := rfl
@[simp] theorem State.setCtrl_cw : (s.setCtrl v).cw = s.cw := rfl
@[simp] theorem State.setCtrl_mat : (s.setCtrl v).mat = s.mat := rfl
@[simp] theorem State.setCtrl_pending : (s.setCtrl v).pending = s.pending := rfl
@[simp] theorem State.setCtrl_observed : (s.setCtrl v).observed = s.observed := rfl
end

section
variable (s : State) (v : Status)
@[simp] theorem State.setStatus_ctrl : (s.setStatus v).ctrl = s.ctrl := rfl
@[simp] theorem State.setStatus_status : (s.setStatus v).status = v := rfl
@[simp] theorem State.setStatus_msglen : (s.setStatus v).msglen = s.msglen := rfl
@[simp] theorem State.setStatus_opa : (s.setStatus v).opa = s.opa := rfl
@[simp] theorem State.setStatus_opb : (s.setStatus v).opb = s.opb := rfl
@[simp] theorem State.setStatus_res : (s.setStatus v).res = s.res := rfl
@[simp] theorem State.setStatus_msg : (s.setStatus v).msg = s.msg := rfl
@[simp] theorem State.setStatus_cw : (s.setStatus v).cw = s.cw := rfl
@[simp] theorem State.setStatus_mat : (s.setStatus v).mat = s.mat := rfl
@[simp] theorem State.setStatus_pending : (s.setStatus v).pending = s.pending := rfl
@[simp] theorem State.setStatus_observed : (s.setStatus v).observed = s.observed := rfl
end

section
variable (s : State) (v : Byte)
@[simp] theorem State.setMsglen_ctrl : (s.setMsglen v).ctrl = s.ctrl := rfl
@[simp] theorem State.setMsglen_status : (s.setMsglen v).status = s.status := rfl
@[simp] theorem State.setMsglen_msglen : (s.setMsglen v).msglen = v := rfl
@[simp] theorem State.setMsglen_opa : (s.setMsglen v).opa = s.opa := rfl
@[simp] theorem State.setMsglen_opb : (s.setMsglen v).opb = s.opb := rfl
@[simp] theorem State.setMsglen_res : (s.setMsglen v).res = s.res := rfl
@[simp] theorem State.setMsglen_msg : (s.setMsglen v).msg = s.msg := rfl
@[simp] theorem State.setMsglen_cw : (s.setMsglen v).cw = s.cw := rfl
@[simp] theorem State.setMsglen_mat : (s.setMsglen v).mat = s.mat := rfl
@[simp] theorem State.setMsglen_pending : (s.setMsglen v).pending = s.pending := rfl
@[simp] theorem State.setMsglen_observed : (s.setMsglen v).observed = s.observed := rfl
end

section
variable (s : State) (v : Byte)
@[simp] theorem State.setOpa_ctrl : (s.setOpa v).ctrl = s.ctrl := rfl
@[simp] theorem State.setOpa_status : (s.setOpa v).status = s.status := rfl
@[simp] theorem State.setOpa_msglen : (s.setOpa v).msglen = s.msglen := rfl
@[simp] theorem State.setOpa_opa : (s.setOpa v).opa = v := rfl
@[simp] theorem State.setOpa_opb : (s.setOpa v).opb = s.opb := rfl
@[simp] theorem State.setOpa_res : (s.setOpa v).res = s.res := rfl
@[simp] theorem State.setOpa_msg : (s.setOpa v).msg = s.msg := rfl
@[simp] theorem State.setOpa_cw : (s.setOpa v).cw = s.cw := rfl
@[simp] theorem State.setOpa_mat : (s.setOpa v).mat = s.mat := rfl
@[simp] theorem State.setOpa_pending : (s.setOpa v).pending = s.pending := rfl
@[simp] theorem State.setOpa_observed : (s.setOpa v).observed = s.observed := rfl
end

section
variable (s : State) (v : Byte)
@[simp] theorem State.setOpb_ctrl : (s.setOpb v).ctrl = s.ctrl := rfl
@[simp] theorem State.setOpb_status : (s.setOpb v).status = s.status := rfl
@[simp] theorem State.setOpb_msglen : (s.setOpb v).msglen = s.msglen := rfl
@[simp] theorem State.setOpb_opa : (s.setOpb v).opa = s.opa := rfl
@[simp] theorem State.setOpb_opb : (s.setOpb v).opb = v := rfl
@[simp] theorem State.setOpb_res : (s.setOpb v).res = s.res := rfl
@[simp] theorem State.setOpb_msg : (s.setOpb v).msg = s.msg := rfl
@[simp] theorem State.setOpb_cw : (s.setOpb v).cw = s.cw := rfl
@[simp] theorem State.setOpb_mat : (s.setOpb v).mat = s.mat := rfl
@[simp] theorem State.setOpb_pending : (s.setOpb v).pending = s.pending := rfl
@[simp] theorem State.setOpb_observed : (s.setOpb v).observed = s.observed := rfl
end

section
variable (s : State) (v : Byte)
@[simp] theorem State.setRes_ctrl : (s.setRes v).ctrl = s.ctrl := rfl
@[simp] theorem State.setRes_status : (s.setRes v).status = s.status := rfl
@[simp] theorem State.setRes_msglen : (s.setRes v).msglen = s.msglen := rfl
@[simp] theorem State.setRes_opa : (s.setRes v).opa = s.opa := rfl
@[simp] theorem State.setRes_opb : (s.setRes v).opb = s.opb := rfl
@[simp] theorem State.setRes_res : (s.setRes v).res = v := rfl
@[simp] theorem State.setRes_msg : (s.setRes v).msg = s.msg := rfl
@[simp] theorem State.setRes_cw : (s.setRes v).cw = s.cw := rfl
@[simp] theorem State.setRes_mat : (s.setRes v).mat = s.mat := rfl
@[simp] theorem State.setRes_pending : (s.setRes v).pending = s.pending := rfl
@[simp] theorem State.setRes_observed : (s.setRes v).observed = s.observed := rfl
end

section
variable (s : State) (v : Vector Byte 14)
@[simp] theorem State.setMsg_ctrl : (s.setMsg v).ctrl = s.ctrl := rfl
@[simp] theorem State.setMsg_status : (s.setMsg v).status = s.status := rfl
@[simp] theorem State.setMsg_msglen : (s.setMsg v).msglen = s.msglen := rfl
@[simp] theorem State.setMsg_opa : (s.setMsg v).opa = s.opa := rfl
@[simp] theorem State.setMsg_opb : (s.setMsg v).opb = s.opb := rfl
@[simp] theorem State.setMsg_res : (s.setMsg v).res = s.res := rfl
@[simp] theorem State.setMsg_msg : (s.setMsg v).msg = v := rfl
@[simp] theorem State.setMsg_cw : (s.setMsg v).cw = s.cw := rfl
@[simp] theorem State.setMsg_mat : (s.setMsg v).mat = s.mat := rfl
@[simp] theorem State.setMsg_pending : (s.setMsg v).pending = s.pending := rfl
@[simp] theorem State.setMsg_observed : (s.setMsg v).observed = s.observed := rfl
end

section
variable (s : State) (v : Vector Byte 26)
@[simp] theorem State.setCw_ctrl : (s.setCw v).ctrl = s.ctrl := rfl
@[simp] theorem State.setCw_status : (s.setCw v).status = s.status := rfl
@[simp] theorem State.setCw_msglen : (s.setCw v).msglen = s.msglen := rfl
@[simp] theorem State.setCw_opa : (s.setCw v).opa = s.opa := rfl
@[simp] theorem State.setCw_opb : (s.setCw v).opb = s.opb := rfl
@[simp] theorem State.setCw_res : (s.setCw v).res = s.res := rfl
@[simp] theorem State.setCw_msg : (s.setCw v).msg = s.msg := rfl
@[simp] theorem State.setCw_cw : (s.setCw v).cw = v := rfl
@[simp] theorem State.setCw_mat : (s.setCw v).mat = s.mat := rfl
@[simp] theorem State.setCw_pending : (s.setCw v).pending = s.pending := rfl
@[simp] theorem State.setCw_observed : (s.setCw v).observed = s.observed := rfl
end

section
variable (s : State) (v : Matrix)
@[simp] theorem State.setMat_ctrl : (s.setMat v).ctrl = s.ctrl := rfl
@[simp] theorem State.setMat_status : (s.setMat v).status = s.status := rfl
@[simp] theorem State.setMat_msglen : (s.setMat v).msglen = s.msglen := rfl
@[simp] theorem State.setMat_opa : (s.setMat v).opa = s.opa := rfl
@[simp] theorem State.setMat_opb : (s.setMat v).opb = s.opb := rfl
@[simp] theorem State.setMat_res : (s.setMat v).res = s.res := rfl
@[simp] theorem State.setMat_msg : (s.setMat v).msg = s.msg := rfl
@[simp] theorem State.setMat_cw : (s.setMat v).cw = s.cw := rfl
@[simp] theorem State.setMat_mat : (s.setMat v).mat = v := rfl
@[simp] theorem State.setMat_pending : (s.setMat v).pending = s.pending := rfl
@[simp] theorem State.setMat_observed : (s.setMat v).observed = s.observed := rfl
end

section
variable (s : State) (v : List HostEvent)
@[simp] theorem State.setPending_ctrl : (s.setPending v).ctrl = s.ctrl := rfl
@[simp] theorem State.setPending_status : (s.setPending v).status = s.status := rfl
@[simp] theorem State.setPending_msglen : (s.setPending v).msglen = s.msglen := rfl
@[simp] theorem State.setPending_opa : (s.setPending v).opa = s.opa := rfl
@[simp] theorem State.setPending_opb : (s.setPending v).opb = s.opb := rfl
@[simp] theorem State.setPending_res : (s.setPending v).res = s.res := rfl
@[simp] theorem State.setPending_msg : (s.setPending v).msg = s.msg := rfl
@[simp] theorem State.setPending_cw : (s.setPending v).cw = s.cw := rfl
@[simp] theorem State.setPending_mat : (s.setPending v).mat = s.mat := rfl
@[simp] theorem State.setPending_pending : (s.setPending v).pending = v := rfl
@[simp] theorem State.setPending_observed : (s.setPending v).observed = s.observed := rfl
end

section
variable (s : State) (v : List Byte)
@[simp] theorem State.setObserved_ctrl : (s.setObserved v).ctrl = s.ctrl := rfl
@[simp] theorem State.setObserved_status : (s.setObserved v).status = s.status := rfl
@[simp] theorem State.setObserved_msglen : (s.setObserved v).msglen = s.msglen := rfl
@[simp] theorem State.setObserved_opa : (s.setObserved v).opa = s.opa := rfl
@[simp] theorem State.setObserved_opb : (s.setObserved v).opb = s.opb := rfl
@[simp] theorem State.setObserved_res : (s.setObserved v).res = s.res := rfl
@[simp] theorem State.setObserved_msg : (s.setObserved v).msg = s.msg := rfl
@[simp] theorem State.setObserved_cw : (s.setObserved v).cw = s.cw := rfl
@[simp] theorem State.setObserved_mat : (s.setObserved v).mat = s.mat := rfl
@[simp] theorem State.setObserved_pending : (s.setObserved v).pending = s.pending := rfl
@[simp] theorem State.setObserved_observed : (s.setObserved v).observed = v := rfl
end

end Sys2Proof.Machine
end

