-- ==== Sys2Proof/Laws/Families.lean ====
section
/-! SUPPORT. The frames of the three pipeline stages (ENCODE, ECC_REM and PLACE past their checks): one lemma per field
a stage leaves alone, and the lengths of the encoder's lists. -/

namespace Sys2Proof.Machine

variable (s : State)

@[simp] theorem formatMessage_ctrl : (formatMessage s).ctrl = s.ctrl := by simp [formatMessage]
@[simp] theorem formatMessage_status : (formatMessage s).status = s.status := by simp [formatMessage]
@[simp] theorem formatMessage_msglen : (formatMessage s).msglen = s.msglen := by simp [formatMessage]
@[simp] theorem formatMessage_opa : (formatMessage s).opa = s.opa := by simp [formatMessage]
@[simp] theorem formatMessage_opb : (formatMessage s).opb = s.opb := by simp [formatMessage]
@[simp] theorem formatMessage_res : (formatMessage s).res = s.res := by simp [formatMessage]
@[simp] theorem formatMessage_msg : (formatMessage s).msg = s.msg := by simp [formatMessage]
@[simp] theorem formatMessage_mat : (formatMessage s).mat = s.mat := by simp [formatMessage]
@[simp] theorem formatMessage_pending : (formatMessage s).pending = s.pending := by simp [formatMessage]
@[simp] theorem formatMessage_observed : (formatMessage s).observed = s.observed := by simp [formatMessage]

@[simp] theorem appendEcc_ctrl : (appendEcc s).ctrl = s.ctrl := by simp [appendEcc]
@[simp] theorem appendEcc_status : (appendEcc s).status = s.status := by simp [appendEcc]
@[simp] theorem appendEcc_msglen : (appendEcc s).msglen = s.msglen := by simp [appendEcc]
@[simp] theorem appendEcc_opa : (appendEcc s).opa = s.opa := by simp [appendEcc]
@[simp] theorem appendEcc_opb : (appendEcc s).opb = s.opb := by simp [appendEcc]
@[simp] theorem appendEcc_res : (appendEcc s).res = s.res := by simp [appendEcc]
@[simp] theorem appendEcc_msg : (appendEcc s).msg = s.msg := by simp [appendEcc]
@[simp] theorem appendEcc_mat : (appendEcc s).mat = s.mat := by simp [appendEcc]
@[simp] theorem appendEcc_pending : (appendEcc s).pending = s.pending := by simp [appendEcc]
@[simp] theorem appendEcc_observed : (appendEcc s).observed = s.observed := by simp [appendEcc]

@[simp] theorem placeSymbol_ctrl : (placeSymbol s).ctrl = s.ctrl := by simp [placeSymbol]
@[simp] theorem placeSymbol_status : (placeSymbol s).status = s.status := by simp [placeSymbol]
@[simp] theorem placeSymbol_msglen : (placeSymbol s).msglen = s.msglen := by simp [placeSymbol]
@[simp] theorem placeSymbol_opa : (placeSymbol s).opa = s.opa := by simp [placeSymbol]
@[simp] theorem placeSymbol_opb : (placeSymbol s).opb = s.opb := by simp [placeSymbol]
@[simp] theorem placeSymbol_res : (placeSymbol s).res = s.res := by simp [placeSymbol]
@[simp] theorem placeSymbol_msg : (placeSymbol s).msg = s.msg := by simp [placeSymbol]
@[simp] theorem placeSymbol_cw : (placeSymbol s).cw = s.cw := by simp [placeSymbol]
@[simp] theorem placeSymbol_pending : (placeSymbol s).pending = s.pending := by simp [placeSymbol]
@[simp] theorem placeSymbol_observed : (placeSymbol s).observed = s.observed := by simp [placeSymbol]

theorem formatMessage_cw : (formatMessage s).cw = withData s.cw (encodeBlock s.msglen (message s)) := by
  simp [formatMessage]

theorem appendEcc_cw : (appendEcc s).cw = withEcc s.cw (remainder (dataBlock s.cw) Rom.gen) := by
  simp [appendEcc]

theorem placeSymbol_mat : (placeSymbol s).mat = symbolMatrix s.ctrl s.msglen.toNat s.cw := by
  simp [placeSymbol]

@[simp] theorem length_msbBits {w : Nat} (v : BitVec w) : (msbBits v).length = w := by
  simp [msbBits]

@[simp] theorem length_repack (S : List Bool) (n : Nat) : (repack S n).length = n := by
  simp [repack]

@[simp] theorem length_padBytes (n : Nat) : (padBytes n).length = n := by
  simp [padBytes]

theorem length_message (h : s.msglen.toNat ≤ 14) : (message s).length = s.msglen.toNat := by
  simp [message, h]

theorem length_flatMap_msbBits (m : List Byte) : (m.flatMap msbBits).length = 8 * m.length := by
  induction m with
  | nil => rfl
  | cons b bs ih =>
    rw [List.flatMap_cons, List.length_append, ih, length_msbBits, List.length_cons]
    omega

/-- S is 16 + 8 bits a message byte long (41_encoder.md R121). -/
theorem length_messageStream (L : Byte) (m : List Byte) : (messageStream L m).length = 16 + 8 * m.length := by
  simp only [messageStream, List.length_append, length_msbBits, length_flatMap_msbBits]
  omega

end Sys2Proof.Machine
end

