-- ==== Sys2Proof/Laws/Matrix.lean ====
section
/-! SUPPORT. Reading a module after module writes. -/

namespace Sys2Proof.Machine

@[simp] theorem Matrix.get_blank (x y : Nat) : Matrix.blank.get x y = false := by
  unfold Matrix.get Matrix.blank
  simp only [Vector.getElem?_replicate]
  split <;> simp [Vector.getElem?_replicate] <;> split <;> rfl

/-- A write inside the grid is read back at its module and nowhere else. -/
theorem Matrix.get_put (m : Matrix) {x y : Nat} (hx : x < 21) (hy : y < 21) (b : Bool) (x' y' : Nat) :
    (m.put x y b).get x' y' = if x' = x ∧ y' = y then b else m.get x' y' := by
  unfold Matrix.get Matrix.put
  simp only [Vector.getElem?_setIfInBounds]
  by_cases h : y' = y
  · subst h
    by_cases h2 : x' = x
    · subst h2
      simp [hx, hy]
    · simp [hy, Ne.symm h2, h2]
  · simp [h, Ne.symm h]

/-- A module that no write touches keeps its value. -/
theorem Matrix.get_putAll_of_untouched (m : Matrix) (dots : List Dot) (x y : Nat)
    (hin : ∀ d ∈ dots, d.x < 21 ∧ d.y < 21) (h : ∀ d ∈ dots, ¬ (d.x = x ∧ d.y = y)) :
    (m.putAll dots).get x y = m.get x y := by
  induction dots generalizing m with
  | nil => rfl
  | cons d ds ih =>
    have hd := hin d (by simp)
    have hne := h d (by simp)
    rw [Matrix.putAll, List.foldl_cons, ← Matrix.putAll,
      ih _ (fun e he => hin e (by simp [he])) (fun e he => h e (by simp [he])),
      Matrix.get_put _ hd.1 hd.2]
    simp only [eq_comm (a := x), eq_comm (a := y), hne, if_false]

/-- Among writes that never give one module two values, each is read back. -/
theorem Matrix.get_putAll_of_mem (m : Matrix) (dots : List Dot)
    (hin : ∀ d ∈ dots, d.x < 21 ∧ d.y < 21)
    (hd : dots.Pairwise fun d e => d.x = e.x ∧ d.y = e.y → d.black = e.black) {d : Dot} (hm : d ∈ dots) :
    (m.putAll dots).get d.x d.y = d.black := by
  induction dots generalizing m d with
  | nil => cases hm
  | cons e es ih =>
    obtain ⟨hne, hes⟩ := List.pairwise_cons.mp hd
    have hin' : ∀ d ∈ es, d.x < 21 ∧ d.y < 21 := fun d hd => hin d (by simp [hd])
    rw [Matrix.putAll, List.foldl_cons, ← Matrix.putAll]
    rcases List.mem_cons.mp hm with rfl | hm
    · by_cases hex : ∃ f ∈ es, d.x = f.x ∧ d.y = f.y
      · obtain ⟨f, hf, hx, hy⟩ := hex
        rw [hx, hy, ih _ hin' hes hf, hne f hf ⟨hx, hy⟩]
      · rw [Matrix.get_putAll_of_untouched _ _ _ _ hin' fun f hf hc => hex ⟨f, hf, hc.1.symm, hc.2.symm⟩,
          Matrix.get_put _ (hin d (by simp)).1 (hin d (by simp)).2]
        simp
    · exact ih _ hin' hes hm

/-- Two matrices that agree on the grid are equal. -/
theorem Matrix.ext_get {m n : Matrix} (h : ∀ x y, x < 21 → y < 21 → m.get x y = n.get x y) : m = n := by
  apply Vector.ext
  intro y hy
  apply Vector.ext
  intro x hx
  have := h x y hx hy
  simpa [Matrix.get, hx, hy] using this

end Sys2Proof.Machine
end

