-- ==== Sys2Proof/Laws/Ops.lean ====
section
/-! SUPPORT. What each shared operation does, said once: the buffer updates byte by byte, the address map on each
range, raising and clearing an error, the length check, and the canonical form of the window. -/

namespace Sys2Proof.Machine

/-! ### Buffer updates -/

theorem getElem_withData (cw : Vector Byte 26) (b : Vector Byte 16) (i : Nat) (h : i < 26) :
    (withData cw b)[i] = if h16 : i < 16 then b[i] else cw[i] := by
  simp [withData]

theorem getElem_withEcc (cw : Vector Byte 26) (e : Vector Byte 10) (i : Nat) (h : i < 26) :
    (withEcc cw e)[i] = if h16 : i < 16 then cw[i] else e[i - 16] := by
  simp [withEcc]

@[simp] theorem dataBlock_withData (cw : Vector Byte 26) (b : Vector Byte 16) :
    dataBlock (withData cw b) = b := by
  apply Vector.ext
  intro i hi
  simp [dataBlock, withData]

@[simp] theorem eccBlock_withData (cw : Vector Byte 26) (b : Vector Byte 16) :
    eccBlock (withData cw b) = eccBlock cw := by
  apply Vector.ext
  intro i hi
  simp [eccBlock, withData]

@[simp] theorem dataBlock_withEcc (cw : Vector Byte 26) (e : Vector Byte 10) :
    dataBlock (withEcc cw e) = dataBlock cw := by
  apply Vector.ext
  intro i hi
  simp [dataBlock, withEcc]

@[simp] theorem eccBlock_withEcc (cw : Vector Byte 26) (e : Vector Byte 10) :
    eccBlock (withEcc cw e) = e := by
  apply Vector.ext
  intro i hi
  simp [eccBlock, withEcc]

/-- CW is its two blocks. -/
theorem cw_ext {c d : Vector Byte 26} (hd : dataBlock c = dataBlock d) (he : eccBlock c = eccBlock d) : c = d := by
  apply Vector.ext
  intro i hi
  by_cases h : i < 16
  · simpa [dataBlock] using congrArg (fun v => v[i]) hd
  · have := congrArg (fun v => v[i - 16]'(by omega)) he
    have e : 16 + (i - 16) = i := by omega
    simpa [eccBlock, e] using this

@[simp] theorem withData_withData (cw : Vector Byte 26) (b c : Vector Byte 16) :
    withData (withData cw b) c = withData cw c := by
  apply cw_ext <;> simp

@[simp] theorem withEcc_withEcc (cw : Vector Byte 26) (d e : Vector Byte 10) :
    withEcc (withEcc cw d) e = withEcc cw e := by
  apply cw_ext <;> simp

/-- The two blocks of CW are written independently. -/
theorem withData_withEcc (cw : Vector Byte 26) (e : Vector Byte 10) (b : Vector Byte 16) :
    withData (withEcc cw e) b = withEcc (withData cw b) e := by
  apply cw_ext <;> simp

/-! ### The address map, range by range (20_memory.md R51, R52) -/

theorem locate_msg (i : Nat) (h : i < 14) : locate (BitVec.ofNat 10 (0x010 + i)) = .msg ⟨i, h⟩ := by
  have e : (BitVec.ofNat 10 (0x010 + i)).toNat = 0x010 + i := by rw [BitVec.toNat_ofNat]; omega
  simp only [locate, e]
  repeat' first | rw [if_neg (by omega)] | rw [dif_pos (by omega)]
  simp

theorem locate_cw (i : Nat) (h : i < 26) : locate (BitVec.ofNat 10 (0x020 + i)) = .cw ⟨i, h⟩ := by
  have e : (BitVec.ofNat 10 (0x020 + i)).toNat = 0x020 + i := by rw [BitVec.toNat_ofNat]; omega
  simp only [locate, e]
  repeat' first | rw [if_neg (by omega)] | rw [dif_neg (by omega)] | rw [dif_pos (by omega)]
  simp

theorem locate_gen (j : Nat) (h : j < 11) : locate (BitVec.ofNat 10 (0x040 + j)) = .gen ⟨j, h⟩ := by
  have e : (BitVec.ofNat 10 (0x040 + j)).toNat = 0x040 + j := by rw [BitVec.toNat_ofNat]; omega
  simp only [locate, e]
  repeat' first | rw [if_neg (by omega)] | rw [dif_neg (by omega)] | rw [dif_pos (by omega)]
  simp

theorem locate_mat (x y : Nat) (hx : x < 21) (hy : y < 21) :
    locate (BitVec.ofNat 10 (0x100 + 21 * y + x)) = .mat ⟨y, hy⟩ ⟨x, hx⟩ := by
  have e : (BitVec.ofNat 10 (0x100 + 21 * y + x)).toNat = 0x100 + 21 * y + x := by
    rw [BitVec.toNat_ofNat]; omega
  simp only [locate, e]
  repeat' first | rw [if_neg (by omega)] | rw [dif_neg (by omega)] | rw [dif_pos (by omega)]
  have h1 : (0x100 + 21 * y + x - 0x100) / 21 = y := by omega
  have h2 : (0x100 + 21 * y + x - 0x100) % 21 = x := by omega
  simp only [h1, h2]

/-- Only address 0x002 is CMD. -/
theorem locate_eq_cmd_iff (a : Addr) : locate a = .cmd ↔ a = cmdAddr := by
  have h : ∀ n, n < 1024 → (locate (BitVec.ofNat 10 n) = .cmd ↔ n = 2) := by decide +kernel
  have h := h a.toNat a.isLt
  rw [BitVec.ofNat_toNat, BitVec.setWidth_eq] at h
  rw [h]
  exact ⟨fun h => BitVec.eq_of_toNat_eq h, fun h => by rw [h]; rfl⟩

/-- What holds of the 1024 numbers holds of every address. -/
theorem addr_forall {P : Addr → Prop} (h : ∀ n < 1024, P (BitVec.ofNat 10 n)) (a : Addr) : P a := by
  have := h a.toNat a.isLt
  rwa [BitVec.ofNat_toNat, BitVec.setWidth_eq] at this

/-- A store changes no other location's byte. -/
theorem readLocation_storeLocation_of_ne (s : State) {l l' : Location} (v : Byte) (h : l' ≠ l) :
    readLocation (storeLocation s l v) l' = readLocation s l' := by
  cases l <;> cases l' <;> first
    | rfl
    | exact absurd rfl h
    | (rename_i i j
       have hij : i.val ≠ j.val := fun e => h (by rw [Fin.ext e])
       simp [storeLocation, readLocation, hij])

/-! ### Errors and the length check -/

@[simp] theorem Status.record_lenErr (st : Status) (e : ErrorCause) :
    (st.record e).lenErr = (st.lenErr || decide (e = .lenErr)) := by
  cases e <;> simp [Status.record]

@[simp] theorem Status.record_cmdErr (st : Status) (e : ErrorCause) :
    (st.record e).cmdErr = (st.cmdErr || decide (e = .cmdErr)) := by
  cases e <;> simp [Status.record]

@[simp] theorem raise_eq (e : ErrorCause) (s : State) : raise e s = s.setStatus (s.status.record e) := rfl

@[simp] theorem clearErrors_eq (s : State) : clearErrors s = s.setStatus Status.clear := rfl

theorem lengthLegal_iff (L : Byte) : lengthLegal L = true ↔ 1 ≤ L.toNat ∧ L.toNat ≤ 14 := by
  rw [lengthLegal, Bool.and_eq_true, decide_eq_true_iff, decide_eq_true_iff]
  exact Iff.rfl

/-- The length check answers one of two states. -/
theorem checkLength_cases (f : State → State) (s : State) :
    (lengthLegal s.msglen = true ∧ checkLength f s = f s)
      ∨ (lengthLegal s.msglen = false ∧ checkLength f s = raise .lenErr s) := by
  cases h : lengthLegal s.msglen <;> simp [checkLength, h]

/-! ### The window as one memory -/

/-- The window lists its cells in canonical form. -/
theorem State.window_wf (s : State) : s.window.wf = true := by
  rw [Memory.wf, Bool.and_eq_true, decide_eq_true_iff, List.all_eq_true]
  refine ⟨List.Pairwise.filter _ ?_, fun p hp => (List.mem_filter.mp hp).2⟩
  exact List.Pairwise.map _ (fun _ _ h => h) List.pairwise_lt_range

/-- Reset's window is in canonical form. -/
theorem window_wf_reset : State.reset.window.wf = true := State.window_wf _

/-- Reading the window as a memory is reading the bus. -/
theorem State.window_read (s : State) (a : Addr) : s.window.read a.toNat = memRead s a := by
  have hmem : (a.toNat, memRead s a) ∈ (List.range 1024).map fun a => (a, memRead s (BitVec.ofNat 10 a)) := by
    refine List.mem_map.mpr ⟨a.toNat, List.mem_range.mpr a.isLt, ?_⟩
    simp
  unfold Memory.read
  cases hf : s.window.find? (fun p => p.1 == a.toNat) with
  | some p =>
    have hp := List.mem_filter.mp (List.mem_of_find?_eq_some hf)
    have h1 : p.1 = a.toNat := by simpa using List.find?_some hf
    obtain ⟨n, -, rfl⟩ := List.mem_map.mp hp.1
    simp only at h1
    simp [h1]
  | none =>
    by_contra hne
    have hin : (a.toNat, memRead s a) ∈ s.window :=
      List.mem_filter.mpr ⟨hmem, bne_iff_ne.mpr fun h => hne h.symm⟩
    exact absurd (beq_self_eq_true a.toNat) (List.find?_eq_none.mp hf _ hin)

end Sys2Proof.Machine
end

