-- ==== Sys2Proof/Laws/PerInstr.lean ====
section
/-! SUPPORT. Statements for all instructions, made per instruction: the family RoundTrip says that a well-formed
command's byte decodes to it. -/

namespace Sys2Proof.Laws.RoundTrip

/-- The byte of a well-formed command decodes to that command. -/
def Statement (i : Instr) : Prop := i.wf = true → decodeCommand (encodeCommand i) = i

theorem nop : Statement .nop := fun _ => rfl
theorem gfMul : Statement .gfMul := fun _ => rfl
theorem gfPow : Statement .gfPow := fun _ => rfl
theorem maskQ : Statement .maskQ := fun _ => rfl
theorem encode : Statement .encode := fun _ => rfl
theorem eccRem : Statement .eccRem := fun _ => rfl
theorem place : Statement .place := fun _ => rfl
theorem run : Statement .run := fun _ => rfl
theorem clrerr : Statement .clrerr := fun _ => rfl

theorem illegal (code : Byte) : Statement (.illegal code) := by
  intro h
  have h9 : 9 ≤ code.toNat := by simpa [Instr.wf] using h
  change decodeCommand code = .illegal code
  unfold decodeCommand
  split <;> first | rfl | omega

end Sys2Proof.Laws.RoundTrip
end

