-- ==== Sys2Proof/Laws/Step.lean ====
section
/-! SUPPORT. Inversion of the bus and of the step: what each event, and each command, can lead to. -/

namespace Sys2Proof.Machine

@[simp] theorem hardReset_mat (s : State) : (hardReset s).mat = Matrix.blank := rfl
@[simp] theorem hardReset_status (s : State) : (hardReset s).status = Status.clear := rfl
@[simp] theorem hardReset_pending (s : State) : (hardReset s).pending = s.pending := rfl
@[simp] theorem hardReset_observed (s : State) : (hardReset s).observed = s.observed := rfl

/-- The state a command answers, as a function. -/
def commandResult : Instr → State → State
  | .nop, s => s
  | .gfMul, s => s.setRes (gfMul s.opa s.opb)
  | .gfPow, s => s.setRes (gfPow s.opa s.opb)
  | .maskQ, s => s.setRes (byteOfBit (maskCoord s.opa.toNat s.opb.toNat))
  | .encode, s => checkLength formatMessage s
  | .eccRem, s => appendEcc s
  | .place, s => checkLength placeSymbol s
  | .run, s => checkLength (fun s => placeSymbol (appendEcc (formatMessage s))) s
  | .clrerr, s => s.setStatus Status.clear
  | .illegal _, s => s.setStatus (s.status.record .cmdErr)

/-- Every command answers exactly that state. -/
theorem exec_eq (i : Instr) (s : State) : exec i s = .next (commandResult i s) := by
  cases i <;> rfl

/-- What a host event can lead to. -/
theorem serve_cases {e : HostEvent} {s t : State} (h : serve e s = .next t) :
    (∃ v, e = .wr cmdAddr v ∧ t = commandResult (decodeCommand v) s)
      ∨ (∃ a v, e = .wr a v ∧ a ≠ cmdAddr ∧ t = storeLocation s (locate a) v)
      ∨ (∃ a, e = .rd a ∧ t = s.setObserved (s.observed ++ [memRead s a]))
      ∨ (e = .reset ∧ t = hardReset s) := by
  cases e with
  | wr a v =>
    by_cases ha : a = cmdAddr
    · subst ha
      rw [serve, memWrite, if_pos rfl, performCommand, exec_eq] at h
      exact .inl ⟨v, rfl, (Host.Outcome.next.inj h).symm⟩
    · rw [serve, memWrite, if_neg ha] at h
      exact .inr (.inl ⟨a, v, rfl, ha, (Host.Outcome.next.inj h).symm⟩)
  | rd a => exact .inr (.inr (.inl ⟨a, rfl, (Host.Outcome.next.inj h).symm⟩))
  | reset => exact .inr (.inr (.inr ⟨rfl, (Host.Outcome.next.inj h).symm⟩))

/-- What a step can lead to. -/
theorem step_cases {s t : State} (h : step s = .next t) :
    (s.pending = [] ∧ t = s) ∨ ∃ e rest, s.pending = e :: rest ∧ serve e (s.setPending rest) = .next t := by
  unfold step serveNext at h
  split at h
  · exact .inl ⟨‹_›, (Host.Outcome.next.inj h).symm⟩
  · exact .inr ⟨_, _, ‹_›, h⟩

/-- A store other than at CMD touches only the host-writable locations. -/
theorem storeLocation_mat (s : State) (l : Location) (v : Byte) : (storeLocation s l v).mat = s.mat := by
  cases l <;> rfl

theorem storeLocation_status (s : State) (l : Location) (v : Byte) :
    (storeLocation s l v).status = s.status := by
  cases l <;> rfl

theorem storeLocation_res (s : State) (l : Location) (v : Byte) : (storeLocation s l v).res = s.res := by
  cases l <;> rfl

end Sys2Proof.Machine
end

