-- ==== Sys2Proof/Tests/Slice0.lean ====
section
/-! SUPPORT. The model's own tests. Expected values come from spec/: the vectors of 95_test_vectors.md, the examples of the
rules, or the encodings of 30_encoding.md. The witnesses at the end meet the hypotheses of the statements. -/

namespace Sys2Proof.Tests

open Sys2Proof.Machine Sys2Proof.Safety

/-! ### Helpers -/

/-- The next state of an outcome; reset's state where there is none (no outcome of this machine has none). -/
def after (o : Host.Outcome State Fault Refusal) : State :=
  match o with
  | .next t => t
  | .fault _ => State.reset
  | .refused _ => State.reset

/-- Reset with OPA and OPB loaded. -/
def withOps (x y : Byte) : State := { State.reset with opa := x, opb := y }

/-- Reset with a message loaded. -/
def withMessage (L : Byte) (m : Vector Byte 14) : State := { State.reset with msglen := L, msg := m }

/-- "PagedOut!" (95 E1). -/
def pagedOut : Vector Byte 14 :=
  #v[0x50#8, 0x61#8, 0x67#8, 0x65#8, 0x64#8, 0x4F#8, 0x75#8, 0x74#8, 0x21#8, 0#8, 0#8, 0#8, 0#8, 0#8]

/-- The PagedOut! Full Codeword (95 P2). -/
def pagedOutCw : Vector Byte 26 :=
  #v[64#8, 149#8, 6#8, 22#8, 118#8, 86#8, 68#8, 247#8, 87#8, 66#8, 16#8, 236#8, 17#8, 236#8, 17#8, 236#8,
     74#8, 190#8, 29#8, 185#8, 203#8, 209#8, 185#8, 63#8, 7#8, 116#8]

/-- The rows of a matrix as numbers, x = 0 the most significant of 21 bits (95 V-PL1). -/
def rowNumbers (m : Matrix) : List Nat := m.toList.map fun r => r.toList.foldl (fun n b => 2 * n + b.toNat) 0

/-! ### WellFormed: one ill-formed term for each check -/

theorem test_wf_refuses_illegal_with_command : (Instr.illegal 0x08#8).wf = false := by decide
theorem test_wf_admits_first_illegal : (Instr.illegal 0x09#8).wf = true := by decide
theorem test_wf_refuses_number_past_window : (AddrExpr.number 1024).wf = false := by decide
theorem test_wf_refuses_msg_index : (AddrExpr.msg 14).wf = false := by decide
theorem test_wf_refuses_cw_index : (AddrExpr.cw 26).wf = false := by decide
theorem test_wf_refuses_gen_index : (AddrExpr.gen 11).wf = false := by decide
theorem test_wf_refuses_mat_index : (AddrExpr.mat 441).wf = false := by decide
theorem test_wf_refuses_wr_to_bad_addr : (Stmt.wr (.msg 14) 0#8).wf = false := by decide
theorem test_wf_refuses_rd_of_bad_addr : (Stmt.rd (.cw 26) none).wf = false := by decide
theorem test_wf_refuses_illegal_mnemonic : (Stmt.command (.illegal 0x09#8)).wf = false := by decide
theorem test_wf_refuses_long_setmsg : (Stmt.setmsg (List.replicate 15 0#8)).wf = false := by decide
theorem test_wf_refuses_long_setcw : (Stmt.setcw (List.replicate 27 0#8)).wf = false := by decide
theorem test_wf_refuses_rdmat_column : (Stmt.rdmat 21 0).wf = false := by decide
theorem test_wf_refuses_rdmat_row : (Stmt.rdmat 0 21).wf = false := by decide

/-! ### Decoding: each constructor's byte written out from the table's encoding column -/

theorem test_decode_nop : decode [0b00000000#8] = .ok (.nop, []) := by rfl
theorem test_decode_gfMul : decode [0b00000001#8] = .ok (.gfMul, []) := by rfl
theorem test_decode_gfPow : decode [0b00000010#8] = .ok (.gfPow, []) := by rfl
theorem test_decode_maskQ : decode [0b00000011#8] = .ok (.maskQ, []) := by rfl
theorem test_decode_encode : decode [0b00000100#8] = .ok (.encode, []) := by rfl
theorem test_decode_eccRem : decode [0b00000101#8] = .ok (.eccRem, []) := by rfl
theorem test_decode_place : decode [0b00000110#8] = .ok (.place, []) := by rfl
theorem test_decode_run : decode [0b00000111#8] = .ok (.run, []) := by rfl
theorem test_decode_clrerr : decode [0b00001000#8] = .ok (.clrerr, []) := by rfl
theorem test_decode_illegal_first : decode [0b00001001#8] = .ok (.illegal 0x09#8, []) := by rfl
theorem test_decode_illegal_last : decode [0b11111111#8] = .ok (.illegal 0xFF#8, []) := by rfl
/-- R223: "a code such as 0x81 does not run command 0x01". -/
theorem test_decode_whole_byte : decode [0x81#8, 0x01#8] = .ok (.illegal 0x81#8, [0x01#8]) := by rfl
theorem test_decode_no_byte : decode [] = .error .noByte := by rfl
theorem test_decodeTableWord : decodeTableWord 8 0x07 = some .run := by decide
theorem test_decodeTableWord_two_bytes : decodeTableWord 16 0x0007 = none := by decide

/-! ### Commands (95 section 2) -/

theorem test_gfMul_no_wrap : (after (exec .gfMul (withOps 0x53#8 0xCA#8))).res = 0x8F#8 := by decide +kernel
theorem test_gfMul_largest : (after (exec .gfMul (withOps 255#8 255#8))).res = 226#8 := by decide +kernel
theorem test_gfPow_inverse_of_two : (after (exec .gfPow (withOps 2#8 254#8))).res = 142#8 := by decide +kernel
theorem test_gfPow_zero_to_zero : (after (exec .gfPow (withOps 0#8 0#8))).res = 1#8 := by decide +kernel
theorem test_maskQ_no_wrap : (after (exec .maskQ (withOps 255#8 255#8))).res = 1#8 := by decide +kernel
theorem test_maskQ_odd : (after (exec .maskQ (withOps 19#8 20#8))).res = 0#8 := by decide +kernel
/-- 95 E1. -/
theorem test_encode_pagedOut : dataBlock (after (exec .encode (withMessage 9#8 pagedOut))).cw = dataBlock pagedOutCw := by
  decide +kernel
/-- 95 2.4: fourteen bytes, no pads. -/
theorem test_encode_full_length :
    (dataBlock (after (exec .encode (withMessage 14#8 (Vector.ofFn fun i => 0x41#8 + BitVec.ofNat 8 i.val)))).cw).toList
      = [64#8, 228#8, 20#8, 36#8, 52#8, 68#8, 84#8, 100#8, 116#8, 132#8, 148#8, 164#8, 180#8, 196#8, 212#8, 224#8] := by
  decide +kernel
theorem test_eccRem_pagedOut :
    eccBlock (after (exec .eccRem { State.reset with cw := pagedOutCw.set 20 0#8 })).cw = eccBlock pagedOutCw := by
  decide +kernel
/-- 95 2.5: only CW[0] = 1. -/
theorem test_eccRem_one_hot :
    (eccBlock (after (exec .eccRem { State.reset with cw := State.reset.cw.set 0 1#8 })).cw).toList
      = [251#8, 73#8, 184#8, 123#8, 222#8, 134#8, 238#8, 56#8, 2#8, 252#8] := by
  decide +kernel
/-- 95 V-PL2: the standard symbol, CTRL = 0x02. -/
theorem test_place_standard_symbol :
    rowNumbers (after (exec .place
      { State.reset with ctrl := { maskExempt := false, fmt2En := true }, msglen := 9#8, cw := pagedOutCw })).mat
      = [0x1FC07F, 0x105741, 0x17495D, 0x174C5D, 0x17555D, 0x104141, 0x1FD57F, 0x000700, 0x154E12, 0x1C8C1B, 0x08C97F]
        ++ [0x1B1C82, 0x14CD31, 0x001690, 0x1FC6FB, 0x104F90, 0x175A60, 0x174462, 0x175D3D, 0x104862, 0x1FDD73] := by
  decide +kernel
/-- 95 V-PL5: MSGLEN = 0 with CTRL = 0x00. -/
theorem test_place_length_error :
    (after (exec .place { State.reset with ctrl := { maskExempt := false, fmt2En := false } })).status
      = { lenErr := true, cmdErr := false } := by
  decide +kernel
/-- 95 V-PL1. -/
theorem test_run_pagedOut_matrix :
    rowNumbers (after (exec .run (withMessage 9#8 pagedOut))).mat
      = [0x1FC07F, 0x105741, 0x17495D, 0x174C5D, 0x17555D, 0x104141, 0x1FD57F, 0x000700, 0x154E00, 0x1C8C1B, 0x08C97F]
        ++ [0x1B1C82, 0x14CD31, 0x001690, 0x1FC6FB, 0x104F10, 0x174A20, 0x174462, 0x174D3D, 0x104860, 0x1FCD72] := by
  decide +kernel
theorem test_run_pagedOut_codeword : (after (exec .run (withMessage 9#8 pagedOut))).cw = pagedOutCw := by decide +kernel
theorem test_nop_keeps_status :
    (after (exec .nop { State.reset with status := { lenErr := false, cmdErr := true } })).status.toByte = 0x02#8 := by
  decide +kernel
theorem test_clrerr :
    (after (exec .clrerr { State.reset with status := { lenErr := true, cmdErr := true } })).status.toByte = 0x00#8 := by
  decide +kernel
theorem test_illegal_sets_cmdErr : (after (exec (.illegal 0xFF#8) State.reset)).status.toByte = 0x02#8 := by decide +kernel

/-! ### The window and the step (95 section 2.8) -/

theorem test_read_ctrl_at_reset : memRead State.reset 0x000#10 = 0x01#8 := by decide +kernel
theorem test_write_ctrl_drops_high_bits :
    memRead (after (serve (.wr 0x000#10 0xFE#8) State.reset)) 0x000#10 = 0x02#8 := by decide +kernel
theorem test_write_gen_ignored :
    memRead (after (serve (.wr 0x040#10 0x00#8) State.reset)) 0x040#10 = 0x01#8 := by decide +kernel
/-- R52: MAT[13][8] is at 0x100 + 21*13 + 8 = 537 (95 P2 prints 0x1E5 for that sum: log 16). -/
theorem test_locate_dark_module : locate 537#10 = .mat 13 8 := by decide +kernel
theorem test_read_last_module : locate 0x2B8#10 = .mat 20 20 := by decide +kernel
theorem test_step_runs_fetch_word :
    (after (step (State.reset.withFetchWord 8 0x42))).status.toByte = 0x02#8 := by decide +kernel
theorem test_step_reads_into_log :
    (after (step { State.reset with pending := [.rd 0x000#10, .reset] })).observed = [0x01#8] := by decide +kernel
theorem test_step_reset_event :
    after (step { withOps 3#8 7#8 with pending := [.reset] }) = State.reset := by decide +kernel
theorem test_run_ends_with_last_access :
    (after (step { State.reset with pending := [.rd 0x000#10] })).runEnded = true := by decide +kernel
/-- 95 P2 step 1. -/
theorem test_setmsg_accesses :
    (Stmt.setmsg [0x50#8, 0x61#8]).accesses = [.wr 0x003#10 0x02#8, .wr 0x010#10 0x50#8, .wr 0x011#10 0x61#8] := by
  decide +kernel
/-- 95 P2 step 8: `RDMAT 20, 20` is R 0x2B8. -/
theorem test_rdmat_accesses : (Stmt.rdmat 20 20).accesses = [.rd 0x2B8#10] := by decide +kernel
/-- R9: the buffers of State have the parameters' sizes. -/
theorem test_buffer_sizes :
    State.reset.cw.size = Config.nFull ∧ Config.nFull = Config.nData + Config.nEcc ∧ Rom.gen.size = Config.genLen
      ∧ State.reset.mat.size = Config.size ∧ State.reset.msg.size = Config.lMax ∧ formatPlaces1.length = Config.fmtLen := by
  decide +kernel

/-! ### Witnesses: a state and operands that meet the hypotheses of each statement -/

/-- Reset with a legal length L. -/
def legal (L : Byte) : State := { State.reset with msglen := L }

theorem witness_LegalLength_shortest : LegalLength (legal 1#8) := by decide
theorem witness_LegalLength_longest : LegalLength (legal 14#8) := by decide
theorem witness_illegal_length_zero : ¬ LegalLength (legal 0#8) := by decide
theorem witness_illegal_length_fifteen : ¬ LegalLength (legal 15#8) := by decide
theorem witness_DecodeFollowsOpcodeMap : 0x09 ≤ (0x09#8 : Byte).toNat ∧ 0x09 ≤ (0xFF#8 : Byte).toNat := by decide
theorem witness_DecodeEncodeAgree :
    Instr.run.wf = true ∧ (Instr.illegal 0xFF#8).wf = true ∧ encodeCommand .run = encodeCommand .run := by decide
theorem witness_StepRunsDecodedCommand :
    ({ State.reset with pending := [.wr 0x002#10 0x07#8] } : State).pending = .wr 0x002#10 0x07#8 :: []
      ∧ decode [0x07#8] = .ok (.run, []) ∧ Instr.run.wf = true := ⟨rfl, rfl, rfl⟩
theorem witness_StepServesEventsInOrder :
    ({ State.reset with pending := [.reset] } : State).pending = .reset :: [] ∧ State.reset.pending = [] := ⟨rfl, rfl⟩
theorem witness_FetchWordRunsNext : 0xFF < 256 := by decide
theorem witness_PseudoStatementsExpand :
    (List.replicate 14 0#8 : List Byte).length ≤ 14 ∧ (List.replicate 26 0#8 : List Byte).length ≤ 26 := by decide
theorem witness_WindowReadsNamedLocations :
    ReservedAddress 0x007#10 ∧ (State.reset.mat.get 20 20 = false)
      ∧ (State.reset.mat.put 20 20 true).get 20 20 = true := by decide +kernel
theorem witness_ReservedAddressesReadZero :
    ∀ a ∈ [0x007#10, 0x00F#10, 0x01E#10, 0x01F#10, 0x03A#10, 0x03F#10, 0x04B#10, 0x04E#10, 0x0FF#10, 0x2B9#10, 0x3FF#10],
      ReservedAddress a := by decide
theorem witness_ReadOnlyWritesIgnored :
    (0x040 ≤ (0x04A#10 : Addr).toNat ∧ (0x04A#10 : Addr).toNat ≤ 0x04A)
      ∧ (0x100 ≤ (0x2B8#10 : Addr).toNat ∧ (0x2B8#10 : Addr).toNat ≤ 0x2B8) := by decide
theorem witness_HostWriteByAddress_otherwise :
    (0x01E#10 : Addr) ≠ 0x000#10 ∧ (0x01E#10 : Addr) ≠ 0x002#10 ∧ (0x01E#10 : Addr) ≠ 0x003#10
      ∧ (0x01E#10 : Addr) ≠ 0x004#10 ∧ (0x01E#10 : Addr) ≠ 0x005#10
      ∧ ¬ (0x010 ≤ (0x01E#10 : Addr).toNat ∧ (0x01E#10 : Addr).toNat ≤ 0x01D)
      ∧ ¬ (0x020 ≤ (0x01E#10 : Addr).toNat ∧ (0x01E#10 : Addr).toNat ≤ 0x039) := by decide
theorem witness_ReadAfterWrite :
    (0x039#10 : Addr) ≠ 0x002#10
      ∧ serve (.wr 0x039#10 5#8) State.reset = .next { State.reset with cw := State.reset.cw.set 25 5#8 }
      ∧ (0x000#10 : Addr) ≠ 0x002#10
      ∧ serve (.wr 0x000#10 2#8) State.reset
          = .next { State.reset with ctrl := { maskExempt := false, fmt2En := true } } := ⟨by decide, rfl, by decide, rfl⟩
theorem witness_RunLeavesFreshSymbol :
    (0x010#10 : Addr) ≠ 0x002#10
      ∧ serve (.wr 0x010#10 5#8) State.reset = .next { State.reset with msg := State.reset.msg.set 0 5#8 } := ⟨by decide, rfl⟩
theorem witness_nonzero_element : (255#8 : Byte) ≠ 0#8 ∧ (1#8 : Byte) ≠ 0#8 := by decide
theorem witness_exponents : 254 < 255 ∧ 0 < 255
    ∧ gfPow 2#8 (BitVec.ofNat 8 0) = gfPow 2#8 (BitVec.ofNat 8 0) := by decide
theorem witness_GfMulCommand : (withOps 0x02#8 0x80#8).opa = 0x02#8 ∧ (withOps 0x02#8 0x80#8).opb = 0x80#8
    ∧ (withOps 0x80#8 0x80#8).opa = 0x80#8 ∧ (withOps 5#8 1#8).opb = 1#8 ∧ (withOps 0#8 5#8).opa = 0#8 := ⟨rfl, rfl, rfl, rfl, rfl⟩
theorem witness_GfPowCommand : (withOps 0#8 1#8).opa = 0#8 ∧ (withOps 0#8 1#8).opb ≠ 0#8
    ∧ (withOps 255#8 254#8).opb = 254#8 ∧ (withOps 255#8 254#8).opa ≠ 0#8 ∧ (withOps 2#8 8#8).opb = 8#8 := by decide
theorem witness_MaskQCommand : ((withOps 255#8 255#8).opa.toNat + (withOps 255#8 255#8).opb.toNat) % 2 = 0
    ∧ ((withOps 19#8 20#8).opa.toNat + (withOps 19#8 20#8).opb.toNat) % 2 = 1 := by decide
theorem witness_FrameOfResultCommands :
    exec .maskQ State.reset = .next (commandResult .maskQ State.reset)
      ∧ exec .gfMul State.reset = .next (commandResult .gfMul State.reset)
      ∧ exec .gfPow State.reset = .next (commandResult .gfPow State.reset) := ⟨rfl, rfl, rfl⟩
theorem witness_FrameOfCodewordCommands :
    LegalLength (legal 14#8) ∧ exec .encode (legal 14#8) = .next (commandResult .encode (legal 14#8))
      ∧ exec .eccRem (legal 14#8) = .next (commandResult .eccRem (legal 14#8))
      ∧ ¬ LegalLength (legal 15#8) ∧ exec .encode (legal 15#8) = .next (commandResult .encode (legal 15#8)) :=
  ⟨by decide, exec_eq _ _, exec_eq _ _, by decide, exec_eq _ _⟩
theorem witness_FrameOfMatrixCommands :
    LegalLength (legal 1#8) ∧ exec .place (legal 1#8) = .next (commandResult .place (legal 1#8))
      ∧ exec .run (legal 1#8) = .next (commandResult .run (legal 1#8))
      ∧ ¬ LegalLength (legal 0#8) ∧ exec .run (legal 0#8) = .next (commandResult .run (legal 0#8)) :=
  ⟨by decide, exec_eq _ _, exec_eq _ _, by decide, exec_eq _ _⟩
theorem witness_FrameOfStatusCommands :
    exec .nop State.reset = .next State.reset ∧ exec .clrerr State.reset = .next State.reset
      ∧ exec (.illegal 0x09#8) State.reset
          = .next { State.reset with status := { lenErr := false, cmdErr := true } } := ⟨rfl, rfl, rfl⟩
theorem witness_EncodeCommand_example :
    (withMessage 9#8 pagedOut).msglen = 9#8 ∧ (withMessage 9#8 pagedOut).msg.toList.take 9
      = [0x50#8, 0x61#8, 0x67#8, 0x65#8, 0x64#8, 0x4F#8, 0x75#8, 0x74#8, 0x21#8] := by decide +kernel
theorem witness_MessageTailIgnored :
    ∀ (j : Nat) (h : j < 14), j < (withMessage 9#8 pagedOut).msglen.toNat →
      (pagedOut.set 9 0xAA#8)[j] = (withMessage 9#8 pagedOut).msg[j] := by decide +kernel
theorem witness_EccRemCommand :
    dataBlock State.reset.cw = Vector.replicate 16 0#8
      ∧ dataBlock pagedOutCw = #v[64#8, 149#8, 6#8, 22#8, 118#8, 86#8, 68#8, 247#8, 87#8, 66#8, 16#8, 236#8, 17#8, 236#8, 17#8, 236#8] := by
  decide +kernel
theorem witness_format_settings :
    State.reset.ctrl.fmt2En = false ∧ ({ State.reset with ctrl := Ctrl.ofByte 0x02#8 } : State).ctrl.fmt2En = true := by decide
theorem witness_PlaceCommand_example :
    ({ legal 9#8 with cw := pagedOutCw } : State).ctrl = { maskExempt := true, fmt2En := false }
      ∧ ({ legal 9#8 with cw := pagedOutCw } : State).cw.toList
        = [64#8, 149#8, 6#8, 22#8, 118#8, 86#8, 68#8, 247#8, 87#8, 66#8, 16#8, 236#8, 17#8, 236#8, 17#8, 236#8]
          ++ [74#8, 190#8, 29#8, 185#8, 203#8, 209#8, 185#8, 63#8, 7#8, 116#8] := by decide +kernel
theorem witness_MaskExemptionProperties :
    LegalLength (legal 14#8) ∧ (legal 14#8).ctrl.maskExempt = true
      ∧ (127 < 208 ∧ 12 + 8 * (legal 14#8).msglen.toNat ≤ 127 ∧ 127 ≤ 15 + 8 * (legal 14#8).msglen.toNat) := by decide
theorem witness_ErrorFree : ErrorFree State.reset := by decide
theorem witness_ClrerrCommand_clears :
    exec .clrerr { State.reset with status := { lenErr := true, cmdErr := true } } = .next State.reset := rfl
theorem witness_LengthError : (legal 0#8).msglen.toNat = 0 ∧ 15 ≤ (legal 15#8).msglen.toNat ∧ 15 ≤ (legal 255#8).msglen.toNat := by
  decide
theorem witness_StatusIsStickyAndInert :
    serve (.wr 0x002#10 0x00#8) State.reset = .next State.reset
      ∧ HostEvent.wr 0x002#10 0x00#8 ≠ .reset ∧ HostEvent.wr 0x002#10 0x00#8 ≠ .wr 0x002#10 0x08#8 := ⟨rfl, by decide, by decide⟩
theorem witness_StatusChangesOnlyAsRuled :
    serve (.wr 0x002#10 0x07#8) State.reset
        = .next { State.reset with status := { lenErr := true, cmdErr := false } }
      ∧ serve (.wr 0x002#10 0x09#8) State.reset
        = .next { State.reset with status := { lenErr := false, cmdErr := true } }
      ∧ serve (.wr 0x002#10 0x08#8) { State.reset with status := { lenErr := true, cmdErr := true } }
        = .next State.reset := ⟨rfl, rfl, rfl⟩
theorem witness_OnlyPlaceAndRunWriteMat :
    (after (serve (.wr 0x002#10 0x06#8) (legal 1#8))).mat ≠ (legal 1#8).mat ∧ LegalLength (legal 1#8) := by decide +kernel
theorem witness_StepKeepsMatWellFormed :
    MatWellFormed State.reset ∧ step State.reset = .next State.reset := ⟨.inl rfl, rfl⟩

end Sys2Proof.Tests
end

section
/-! SUPPORT. Sections 2 and 7 of 10_state.md: the decoder inverted, what a command and a host event do to STATUS,
what STATUS does to a command, and the statements about CTRL, STATUS and the reset values. -/

namespace Sys2Proof.Machine

open Sys2Proof.Safety

/-! ### The decoder inverted (30_encoding.md R82) -/

/-- Each byte is the byte of the command it decodes to. -/
@[simp] theorem encodeCommand_decodeCommand (c : Byte) : encodeCommand (decodeCommand c) = c := by
  unfold decodeCommand
  split
  case h_10 => rfl
  all_goals exact BitVec.eq_of_toNat_eq (Eq.symm ‹_›)

/-- The byte that decodes to a known command. -/
theorem eq_encodeCommand_of_decodeCommand_eq {c : Byte} {i : Instr} (h : decodeCommand c = i) :
    c = encodeCommand i := by
  rw [← h, encodeCommand_decodeCommand]

/-- Only bytes from 0x09 on decode to no command (R83). -/
theorem le_toNat_of_decodeCommand_eq_illegal {c code : Byte} (h : decodeCommand c = .illegal code) :
    0x09 ≤ c.toNat := by
  by_contra hlt
  unfold decodeCommand at h
  generalize c.toNat = n at h hlt
  interval_cases n <;> cases h

/-! ### What a command and a host event do to STATUS (10_state.md R24, 60_exceptions.md R241 to R246) -/

theorem lengthLegal_eq_false_iff (s : State) : lengthLegal s.msglen = false ↔ ¬ LegalLength s := by
  rw [← Bool.not_eq_true, lengthLegal_iff]

/-- A checked effect that keeps STATUS leaves it alone or, at an illegal length, records LEN_ERR. -/
theorem checkLength_status_cases {f : State → State} (hf : ∀ s, (f s).status = s.status) (s : State) :
    (checkLength f s).status = s.status
      ∨ (¬ LegalLength s ∧ (checkLength f s).status = s.status.record .lenErr) := by
  obtain ⟨-, h⟩ | ⟨hlen, h⟩ := checkLength_cases f s
  · exact .inl (by rw [h, hf])
  · exact .inr ⟨(lengthLegal_eq_false_iff s).mp hlen, by rw [h, raise_eq, State.setStatus_status]⟩

/-- The four things a command can do to STATUS. -/
theorem commandResult_status_cases (i : Instr) (s : State) :
    (commandResult i s).status = s.status
      ∨ ((i = .encode ∨ i = .place ∨ i = .run) ∧ ¬ LegalLength s
          ∧ (commandResult i s).status = s.status.record .lenErr)
      ∨ ((∃ code, i = .illegal code) ∧ (commandResult i s).status = s.status.record .cmdErr)
      ∨ (i = .clrerr ∧ (commandResult i s).status = Status.clear) := by
  cases i with
  | nop | gfMul | gfPow | maskQ => exact .inl rfl
  | eccRem => exact .inl (appendEcc_status s)
  | encode => exact (checkLength_status_cases formatMessage_status s).imp_right fun h => .inl ⟨by simp, h⟩
  | place => exact (checkLength_status_cases placeSymbol_status s).imp_right fun h => .inl ⟨by simp, h⟩
  | run =>
    exact (checkLength_status_cases (f := fun s => placeSymbol (appendEcc (formatMessage s))) (by simp) s).imp_right
      fun h => .inl ⟨by simp, h⟩
  | clrerr => exact .inr (.inr (.inr ⟨rfl, rfl⟩))
  | illegal code => exact .inr (.inr (.inl ⟨⟨code, rfl⟩, rfl⟩))

/-- The four things a host event can do to STATUS, each with the events that do it. -/
theorem serve_status_cases {e : HostEvent} {s t : State} (h : serve e s = .next t) :
    t.status = s.status
      ∨ ((e = .wr 0x002#10 0x04#8 ∨ e = .wr 0x002#10 0x06#8 ∨ e = .wr 0x002#10 0x07#8) ∧ ¬ LegalLength s
          ∧ t.status = s.status.record .lenErr)
      ∨ ((∃ c : Byte, 0x09 ≤ c.toNat ∧ e = .wr 0x002#10 c) ∧ t.status = s.status.record .cmdErr)
      ∨ ((e = .wr 0x002#10 0x08#8 ∨ e = .reset) ∧ t.status = Status.clear) := by
  obtain ⟨v, rfl, rfl⟩ | ⟨a, v, rfl, -, rfl⟩ | ⟨a, rfl, rfl⟩ | ⟨rfl, rfl⟩ := serve_cases h
  · obtain hkeep | ⟨hi, hlen, hrec⟩ | ⟨⟨code, hi⟩, hrec⟩ | ⟨hi, hclear⟩ :=
      commandResult_status_cases (decodeCommand v) s
    · exact .inl hkeep
    · refine .inr (.inl ⟨?_, hlen, hrec⟩)
      obtain hi | hi | hi := hi <;> simp [eq_encodeCommand_of_decodeCommand_eq hi, encodeCommand, cmdAddr]
    · exact .inr (.inr (.inl ⟨⟨v, le_toNat_of_decodeCommand_eq_illegal hi, rfl⟩, hrec⟩))
    · refine .inr (.inr (.inr ⟨.inl ?_, hclear⟩))
      rw [eq_encodeCommand_of_decodeCommand_eq hi]
      rfl
  · exact .inl (storeLocation_status s _ v)
  · exact .inl rfl
  · exact .inr (.inr (.inr ⟨.inr rfl, rfl⟩))

/-! ### No command reads STATUS (10_state.md R39) -/

theorem State.setRes_setStatus (s : State) (st : Status) (v : Byte) :
    (s.setStatus st).setRes v = (s.setRes v).setStatus st := rfl

theorem State.setCw_setStatus (s : State) (st : Status) (v : Vector Byte 26) :
    (s.setStatus st).setCw v = (s.setCw v).setStatus st := rfl

theorem State.setMat_setStatus (s : State) (st : Status) (v : Matrix) :
    (s.setStatus st).setMat v = (s.setMat v).setStatus st := rfl

@[simp] theorem State.setStatus_setStatus (s : State) (st st' : Status) :
    (s.setStatus st).setStatus st' = s.setStatus st' := rfl

@[simp] theorem message_setStatus (s : State) (st : Status) : message (s.setStatus st) = message s := by
  simp [message]

@[simp] theorem formatMessage_setStatus (s : State) (st : Status) :
    formatMessage (s.setStatus st) = (formatMessage s).setStatus st := by
  simp [formatMessage, State.setCw_setStatus]

@[simp] theorem appendEcc_setStatus (s : State) (st : Status) :
    appendEcc (s.setStatus st) = (appendEcc s).setStatus st := by
  simp [appendEcc, State.setCw_setStatus]

@[simp] theorem placeSymbol_setStatus (s : State) (st : Status) :
    placeSymbol (s.setStatus st) = (placeSymbol s).setStatus st := by
  simp [placeSymbol, State.setMat_setStatus]

/-- The length check reads MSGLEN only, so a checked effect that does not read STATUS stays so. -/
theorem checkLength_setStatus {f : State → State} (hf : ∀ s st, f (s.setStatus st) = (f s).setStatus st)
    (s : State) (st : Status) : ∃ st', checkLength f (s.setStatus st) = (checkLength f s).setStatus st' := by
  cases hlen : lengthLegal s.msglen with
  | true => exact ⟨st, by simp [checkLength, hlen, hf]⟩
  | false => exact ⟨st.record .lenErr, by simp [checkLength, hlen]⟩

/-- From states that differ in STATUS alone, a command leads to states that differ in STATUS alone. -/
theorem commandResult_setStatus (i : Instr) (s : State) (st : Status) :
    ∃ st', commandResult i (s.setStatus st) = (commandResult i s).setStatus st' := by
  cases i with
  | nop => exact ⟨st, rfl⟩
  | gfMul | gfPow | maskQ => exact ⟨st, State.setRes_setStatus s st _⟩
  | eccRem => exact ⟨st, appendEcc_setStatus s st⟩
  | encode => exact checkLength_setStatus formatMessage_setStatus s st
  | place => exact checkLength_setStatus placeSymbol_setStatus s st
  | run => exact checkLength_setStatus (f := fun s => placeSymbol (appendEcc (formatMessage s))) (by simp) s st
  | clrerr => exact ⟨Status.clear, rfl⟩
  | illegal => exact ⟨st.record .cmdErr, rfl⟩

/-! ### CTRL and the reset values (10_state.md R22, R38) -/

/-- A read of CTRL bit by bit. -/
theorem Ctrl.getLsbD_toByte (c : Ctrl) {n : Nat} (hn : n < 8) :
    c.toByte.getLsbD n = ((n == 0 && c.maskExempt) || (n == 1 && c.fmt2En)) := by
  obtain ⟨maskExempt, fmt2En⟩ := c
  decide +revert

/-- CTRL reads back bits 1:0 of the byte written to it. -/
theorem Ctrl.toByte_ofByte (v : Byte) : (Ctrl.ofByte v).toByte = v &&& 0x03#8 := by
  refine BitVec.eq_of_getLsbD_eq fun n hn => ?_
  rw [Ctrl.getLsbD_toByte _ hn]
  interval_cases n <;> simp [Ctrl.ofByte]

/-- The byte a location reads as after reset: the table of R38, with the constants of R33 and R34. -/
def Location.resetByte : Location → Byte
  | .ctrl => 0x01#8
  | .gen j => Rom.gen[j]
  | .fmtHi => 0x54#8
  | .fmtLo => 0x12#8
  | _ => 0x00#8

/-- Reset leaves the buffers and MAT all zero. -/
theorem readLocation_reset (l : Location) : readLocation State.reset l = l.resetByte := by
  cases l with
  | mat y x => simp [readLocation, State.reset, byteOfBit, Location.resetByte]
  | msg i | cw i => simp [readLocation, State.reset, Location.resetByte]
  | _ => rfl

end Sys2Proof.Machine

namespace Sys2Proof.Proofs

open Sys2Proof.Machine Sys2Proof.Safety

/-- Settles O50: by the four things a host event can do to STATUS only a clearing event drops a bit, and no command's
result depends on STATUS. -/
theorem statusIsStickyAndInert : Obligations.StatusIsStickyAndInert := by
  refine ⟨fun e s t h hreset hclrerr => ?_, fun i s st => ?_⟩
  · obtain hkeep | ⟨-, -, hrec⟩ | ⟨-, hrec⟩ | ⟨he, -⟩ := serve_status_cases h
    · simp [hkeep]
    · simp +contextual [hrec]
    · simp +contextual [hrec]
    · exact absurd he (by simp [hreset, hclrerr])
  · obtain ⟨st', h⟩ := commandResult_setStatus i s st
    refine ⟨_, _, exec_eq i s, exec_eq i _, ?_⟩
    change commandResult i (s.setStatus st)
      = (commandResult i s).setStatus (commandResult i (s.setStatus st)).status
    rw [h, State.setStatus_status]

/-- Settles O51, by the four things a host event can do to STATUS. -/
theorem statusChangesOnlyAsRuled : Obligations.StatusChangesOnlyAsRuled := by
  refine ⟨fun _ _ => rfl, fun e s t h => ?_⟩
  obtain hkeep | ⟨he, hlen, hrec⟩ | ⟨he, hrec⟩ | ⟨he, hclear⟩ := serve_status_cases h
  · simp +contextual [hkeep]
  · exact ⟨fun _ _ => ⟨hlen, he⟩, by simp +contextual [hrec], by simp +contextual [hrec]⟩
  · exact ⟨by simp +contextual [hrec], fun _ _ => he, by simp +contextual [hrec]⟩
  · exact ⟨by simp [hclear, Status.clear], by simp [hclear, Status.clear], fun _ => he⟩

/-- Settles O11: the write to CTRL is the store of its two bits. -/
theorem ctrlKeepsTwoBits : Obligations.CtrlKeepsTwoBits := fun s v =>
  ⟨s.setCtrl (Ctrl.ofByte v), rfl, rfl, rfl, Ctrl.toByte_ofByte v, rfl⟩

/-- Settles O14, along the ranges of the address map. -/
theorem resetValues : Obligations.ResetValues := by
  intro a
  rw [memRead, readLocation_reset]
  fun_cases locate a
  all_goals
    split_ifs
    all_goals first | rfl | bv_omega

end Sys2Proof.Proofs
end

section
/-! SUPPORT. The register window of 20_memory.md: what a host read returns and what a host write does at each address,
and the statements of R53 to R56. -/

namespace Sys2Proof.Machine

open Sys2Proof.Safety

/-! ### The map outside its writable rows (20_memory.md R51, R53, R54) -/

/-- R51's reserved rows are the addresses that name nothing. -/
theorem locate_of_reservedAddress {a : Addr} (h : ReservedAddress a) : locate a = .reserved := by
  fun_cases locate a
  case case14 => rfl
  all_goals omega

/-- The addresses whose rows of R56 are stores; CMD's write is none. -/
abbrev StorableAddress (a : Addr) : Prop :=
  a.toNat = 0x000 ∨ (0x003 ≤ a.toNat ∧ a.toNat ≤ 0x005) ∨ (0x010 ≤ a.toNat ∧ a.toNat ≤ 0x01D)
    ∨ (0x020 ≤ a.toNat ∧ a.toNat ≤ 0x039)

/-- At every other address nothing is stored. The branches of `locate` given to `omega` are the stores: CTRL, MSGLEN, OPA,
OPB, MSG and CW. -/
theorem storeLocation_of_not_storableAddress (s : State) {a : Addr} (v : Byte) (h : ¬ StorableAddress a) :
    storeLocation s (locate a) v = s := by
  fun_cases locate a
  case case1 | case4 | case5 | case6 | case8 | case9 => omega
  all_goals rfl

/-! ### A host write (20_memory.md R56) -/

/-- A write at a location other than CMD is its store. -/
theorem serve_wr_of_locate (s : State) {a : Addr} {l : Location} (v : Byte) (ha : locate a = l) (hl : l ≠ .cmd) :
    serve (.wr a v) s = .next (storeLocation s l v) := by
  have hne : a ≠ cmdAddr := fun h => hl (ha ▸ (locate_eq_cmd_iff a).mpr h)
  rw [serve, memWrite, if_neg hne, ha]

/-- A write has no effect where nothing is stored and no command is performed. -/
theorem serve_wr_of_not_storableAddress (s : State) {a : Addr} (v : Byte) (hcmd : a ≠ 0x002#10)
    (h : ¬ StorableAddress a) : serve (.wr a v) s = .next s := by
  rw [serve_wr_of_locate s v rfl (mt (locate_eq_cmd_iff a).mp hcmd), storeLocation_of_not_storableAddress s v h]

/-! ### A host read (20_memory.md R55) -/

/-- No location's byte depends on the host's record of its reads. -/
@[simp] theorem readLocation_setObserved (s : State) (bytes : List Byte) (l : Location) :
    readLocation (s.setObserved bytes) l = readLocation s l := by
  cases l <;> rfl

theorem memRead_observe (s : State) (v : Byte) (b : Addr) : memRead (observe v s) b = memRead s b :=
  readLocation_setObserved s _ (locate b)

/-- A read of STATUS bit by bit. -/
theorem Status.getLsbD_toByte (st : Status) {n : Nat} (hn : n < 8) :
    st.toByte.getLsbD n = ((n == 0 && st.lenErr) || (n == 1 && st.cmdErr)) := by
  obtain ⟨lenErr, cmdErr⟩ := st
  decide +revert

/-- A module's address reads as the module's bit (R52). -/
theorem memRead_mat (s : State) {x y : Nat} (hx : x < 21) (hy : y < 21) :
    memRead s (BitVec.ofNat 10 (0x100 + 21 * y + x)) = byteOfBit (s.mat.get x y) := by
  rw [memRead, locate_mat x y hx hy, readLocation]

theorem memRead_of_reservedAddress (s : State) {a : Addr} (h : ReservedAddress a) : memRead s a = 0x00#8 := by
  rw [memRead, locate_of_reservedAddress h, readLocation]

end Sys2Proof.Machine

namespace Sys2Proof.Proofs

open Sys2Proof.Machine Sys2Proof.Safety

/-- Settles O7, along the ranges of the address map. -/
theorem windowReadsNamedLocations : Obligations.WindowReadsNamedLocations := by
  intro s
  refine ⟨fun n hn => Ctrl.getLsbD_toByte s.ctrl hn, fun n hn => Status.getLsbD_toByte s.status hn,
    rfl, rfl, rfl, rfl, rfl, fun i h => ?msg, fun i h => ?cw, fun j h => ?gen, rfl, rfl,
    fun x hx y hy => ?mat, fun a => memRead_of_reservedAddress s,
    fun a => ⟨_, rfl, memRead_observe s (memRead s a)⟩⟩
  case msg => rw [memRead, locate_msg i h]; rfl
  case cw => rw [memRead, locate_cw i h]; rfl
  case gen => rw [memRead, locate_gen j h]; rfl
  case mat =>
    rw [memRead_mat s (by omega) (by omega)]
    exact ⟨fun hwhite => by rw [hwhite]; rfl, fun hblack => by rw [hblack]; rfl⟩

/-- Settles O10: each row of R56 is the store of the location its address names, except CMD's. -/
theorem hostWriteByAddress : Obligations.HostWriteByAddress := by
  intro s v
  refine ⟨rfl, rfl, rfl, rfl, rfl,
    fun i h => serve_wr_of_locate s v (locate_msg i h) nofun,
    fun i h => serve_wr_of_locate s v (locate_cw i h) nofun,
    fun a hctrl hcmd hmsglen hopa hopb hmsg hcw => ?_⟩
  exact serve_wr_of_not_storableAddress s v hcmd (by bv_omega)

/-- Settles O8: a reserved address names nothing, so it is neither CMD nor a place to store in. -/
theorem reservedAddressesReadZero : Obligations.ReservedAddressesReadZero := by
  intro s a v h
  have hwrite : serve (.wr a v) s = .next s := serve_wr_of_locate s v (locate_of_reservedAddress h) nofun
  exact ⟨memRead_of_reservedAddress s h, hwrite, _, rfl, rfl, memRead_observe s (memRead s a)⟩

/-- Settles O9: no read-only address is CMD or a place to store in. -/
theorem readOnlyWritesIgnored : Obligations.ReadOnlyWritesIgnored := fun s a v h =>
  serve_wr_of_not_storableAddress s v (by bv_omega) (by bv_omega)

end Sys2Proof.Proofs
end


section
/-! SUPPORT. 30_encoding.md: the opcode map. -/

namespace Sys2Proof.Machine

/-- The converse of `le_toNat_of_decodeCommand_eq_illegal`: no byte from 0x09 on has a command (R83). -/
theorem decodeCommand_of_le_toNat {c : Byte} (h : 0x09 ≤ c.toNat) : decodeCommand c = .illegal c :=
  Laws.RoundTrip.illegal c (decide_eq_true h)

end Sys2Proof.Machine

namespace Sys2Proof.Proofs

open Sys2Proof.Machine Sys2Proof.Laws

/-- Settles O1: each row of the map is the round trip of its command, and the other bytes have no command. -/
theorem decodeFollowsOpcodeMap : Obligations.DecodeFollowsOpcodeMap :=
  ⟨RoundTrip.nop rfl, RoundTrip.gfMul rfl, RoundTrip.gfPow rfl, RoundTrip.maskQ rfl, RoundTrip.encode rfl,
    RoundTrip.eccRem rfl, RoundTrip.place rfl, RoundTrip.run rfl, RoundTrip.clrerr rfl,
    fun _ => decodeCommand_of_le_toNat⟩

end Sys2Proof.Proofs
end

section
/-! SUPPORT. 40_gf256.md: `gf_mul` is a commutative and associative product that distributes over `^`, `gf_pow` obeys
the laws of powers, and the statements of R101 to R104. -/

namespace Sys2Proof.Machine

open Sys2Proof.Safety

/-! ### Doubling a byte (R100) -/

/-- The byte the loop of R100 doubles `a` to: the shift, and where it gave 256 or more the low byte of 285. -/
def gfDoubleByte (a : Byte) : Byte := (a <<< 1) ^^^ (if a.msb then 0x1D#8 else 0#8)

theorem gfDouble_zeroExtend (a : Byte) : gfDouble (a.zeroExtend 9) = (gfDoubleByte a).zeroExtend 9 := by
  decide +revert

/-- A byte chosen by the sum of two bits is the sum of the two choices. -/
theorem ite_bxor (b c : Bool) (d : Byte) :
    (if b ^^ c then d else 0#8) = (if b then d else 0#8) ^^^ (if c then d else 0#8) := by
  cases b <;> cases c <;> simp

theorem gfDoubleByte_xor (a b : Byte) : gfDoubleByte (a ^^^ b) = gfDoubleByte a ^^^ gfDoubleByte b := by
  unfold gfDoubleByte
  rw [BitVec.shiftLeft_xor_distrib, BitVec.msb_xor, ite_bxor]
  ac_rfl

theorem iterate_gfDoubleByte_xor (n : Nat) (a b : Byte) :
    gfDoubleByte^[n] (a ^^^ b) = gfDoubleByte^[n] a ^^^ gfDoubleByte^[n] b :=
  Function.Semiconj₂.iterate gfDoubleByte_xor n a b

@[simp] theorem gfDoubleByte_zero : gfDoubleByte 0#8 = 0#8 := rfl

/-! ### `gf_mul` as a sum of doublings (R100) -/

/-- The sum of the doublings of `x` at the set bits of `y` below `n`: r of R100 after `n` turns. -/
def gfMulSum (x y : Byte) : Nat → Byte
  | 0 => 0#8
  | n + 1 => gfMulSum x y n ^^^ (if y.getLsbD n then gfDoubleByte^[n] x else 0#8)

/-- What R100's loop holds after `n` turns. -/
theorem foldl_gfMulStep (x y : Byte) (n : Nat) :
    (List.range n).foldl (fun ra i => gfMulStep ra (y.getLsbD i)) (0#8, x.zeroExtend 9)
      = (gfMulSum x y n, (gfDoubleByte^[n] x).zeroExtend 9) := by
  induction n with
  | zero => rfl
  | succ n ih =>
    rw [List.range_succ, List.foldl_append, ih, List.foldl_cons, List.foldl_nil, gfMulStep, gfDouble_zeroExtend,
      ← Function.iterate_succ_apply' gfDoubleByte, gfMulSum]
    split <;> simp

theorem gfMul_eq_gfMulSum (x y : Byte) : gfMul x y = gfMulSum x y 8 := by
  rw [gfMul, foldl_gfMulStep]

theorem gfMulSum_xor_left (x x' y : Byte) (n : Nat) :
    gfMulSum (x ^^^ x') y n = gfMulSum x y n ^^^ gfMulSum x' y n := by
  induction n with
  | zero => simp [gfMulSum]
  | succ n ih =>
    rw [gfMulSum, gfMulSum, gfMulSum, ih, iterate_gfDoubleByte_xor]
    split
    · ac_rfl
    · simp

theorem gfMulSum_xor_right (x y y' : Byte) (n : Nat) :
    gfMulSum x (y ^^^ y') n = gfMulSum x y n ^^^ gfMulSum x y' n := by
  induction n with
  | zero => simp [gfMulSum]
  | succ n ih =>
    rw [gfMulSum, gfMulSum, gfMulSum, ih, BitVec.getLsbD_xor, ite_bxor]
    ac_rfl

theorem gfMulSum_double_left (x y : Byte) (n : Nat) :
    gfMulSum (gfDoubleByte x) y n = gfDoubleByte (gfMulSum x y n) := by
  induction n with
  | zero => simp [gfMulSum]
  | succ n ih =>
    rw [gfMulSum, gfMulSum, ih, gfDoubleByte_xor, ← Function.iterate_succ_apply, Function.iterate_succ_apply']
    split <;> simp

/-! ### The laws of `gf_mul` (R101, 42_ecc.md R143) -/

theorem gfMul_xor_left (x x' y : Byte) : gfMul (x ^^^ x') y = gfMul x y ^^^ gfMul x' y := by
  simp only [gfMul_eq_gfMulSum, gfMulSum_xor_left]

theorem gfMul_xor_right (x y y' : Byte) : gfMul x (y ^^^ y') = gfMul x y ^^^ gfMul x y' := by
  simp only [gfMul_eq_gfMulSum, gfMulSum_xor_right]

theorem gfMul_double_left (x y : Byte) : gfMul (gfDoubleByte x) y = gfDoubleByte (gfMul x y) := by
  simp only [gfMul_eq_gfMulSum, gfMulSum_double_left]

@[simp] theorem one_gfMul (y : Byte) : gfMul 1#8 y = y := by
  decide +revert

/-- Every byte is made from 1 by `^` and doubling, so what holds of 1 and passes through both holds of every byte. -/
theorem gf_induction {P : Byte → Prop} (one : P 1#8) (xor : ∀ a b, P a → P b → P (a ^^^ b))
    (double : ∀ a, P a → P (gfDoubleByte a)) (y : Byte) : P y := by
  have zero : P 0#8 := xor 1#8 1#8 one one
  have sum (n : Nat) : P (gfMulSum 1#8 y n) := by
    induction n with
    | zero => exact zero
    | succ n ih =>
      refine xor _ _ ih ?_
      split
      · exact Function.Iterate.rec P one double n
      · exact zero
  rw [← one_gfMul y, gfMul_eq_gfMulSum]
  exact sum 8

@[simp] theorem gfMul_one (x : Byte) : gfMul x 1#8 = x := by
  induction x using gf_induction with
  | one => exact one_gfMul 1#8
  | xor a b iha ihb => rw [gfMul_xor_left, iha, ihb]
  | double a ih => rw [gfMul_double_left, ih]

theorem gfMul_double_right (x y : Byte) : gfMul x (gfDoubleByte y) = gfDoubleByte (gfMul x y) := by
  induction x using gf_induction with
  | one => rw [one_gfMul, one_gfMul]
  | xor a b iha ihb => rw [gfMul_xor_left, iha, ihb, gfMul_xor_left, gfDoubleByte_xor]
  | double a ih => rw [gfMul_double_left, ih, gfMul_double_left]

theorem gfMul_comm (x y : Byte) : gfMul x y = gfMul y x := by
  induction y using gf_induction with
  | one => rw [gfMul_one, one_gfMul]
  | xor a b iha ihb => rw [gfMul_xor_right, iha, ihb, gfMul_xor_left]
  | double a ih => rw [gfMul_double_right, ih, gfMul_double_left]

theorem gfMul_assoc (x y z : Byte) : gfMul (gfMul x y) z = gfMul x (gfMul y z) := by
  induction z using gf_induction with
  | one => rw [gfMul_one, gfMul_one]
  | xor a b iha ihb => rw [gfMul_xor_right, iha, ihb, gfMul_xor_right, gfMul_xor_right]
  | double a ih => rw [gfMul_double_right, ih, gfMul_double_right, gfMul_double_right]

@[simp] theorem gfMul_zero (x : Byte) : gfMul x 0#8 = 0#8 := by
  rw [← BitVec.xor_self (x := 0#8), gfMul_xor_right, BitVec.xor_self, BitVec.xor_self]

@[simp] theorem zero_gfMul (y : Byte) : gfMul 0#8 y = 0#8 := by
  rw [gfMul_comm, gfMul_zero]

/-! ### Doubling runs through the nonzero bytes (R106) -/

theorem gfMul_iterate_double_left (x y : Byte) (n : Nat) :
    gfMul (gfDoubleByte^[n] x) y = gfDoubleByte^[n] (gfMul x y) :=
  Function.Semiconj.iterate_right (f := (gfMul · y)) (gfMul_double_left · y) n x

/-- To double `m` times is to multiply by the `m`-th double of 1: long runs of doublings are short runs of products. -/
theorem iterate_gfDoubleByte_mul (m n : Nat) (x : Byte) :
    gfDoubleByte^[m * n] x = (gfMul (gfDoubleByte^[m] 1#8))^[n] x := by
  have factor : gfDoubleByte^[m] = gfMul (gfDoubleByte^[m] 1#8) := by
    funext y
    rw [gfMul_iterate_double_left, one_gfMul]
  rw [Function.iterate_mul, ← factor]

theorem iterate_gfDoubleByte_17 : gfDoubleByte^[17] 1#8 = 152#8 := by rfl

theorem iterate_gfDoubleByte_51 : gfDoubleByte^[51] 1#8 = 10#8 := by
  rw [iterate_gfDoubleByte_mul 17 3, iterate_gfDoubleByte_17]
  rfl

theorem iterate_gfDoubleByte_85 : gfDoubleByte^[85] 1#8 = 214#8 := by
  rw [iterate_gfDoubleByte_mul 17 5, iterate_gfDoubleByte_17]
  rfl

theorem iterate_gfDoubleByte_255 (x : Byte) : gfDoubleByte^[255] x = x := by
  induction x using gf_induction with
  | one =>
    rw [iterate_gfDoubleByte_mul 85 3, iterate_gfDoubleByte_85]
    rfl
  | xor a b iha ihb => rw [iterate_gfDoubleByte_xor, iha, ihb]
  | double a ih => rw [← Function.iterate_succ_apply, Function.iterate_succ_apply', ih]

theorem iterate_gfDoubleByte_ne_zero {x : Byte} (hx : x ≠ 0#8) (n : Nat) : gfDoubleByte^[n] x ≠ 0#8 := by
  have injective : Function.Injective gfDoubleByte :=
    Function.LeftInverse.injective (g := gfDoubleByte^[254]) iterate_gfDoubleByte_255
  rw [← Function.iterate_fixed gfDoubleByte_zero n]
  exact (injective.iterate n).ne hx

/-- Doubling 1 comes back to 1 after 255 turns and not after 255/17, 255/5 or 255/3. -/
theorem minimalPeriod_gfDoubleByte : Function.minimalPeriod gfDoubleByte 1#8 = 255 := by
  have dvd : Function.minimalPeriod gfDoubleByte 1#8 ∣ 255 :=
    Function.IsPeriodicPt.minimalPeriod_dvd (iterate_gfDoubleByte_255 1#8)
  have returns (n : Nat) (hn : Function.minimalPeriod gfDoubleByte 1#8 ∣ n) : gfDoubleByte^[n] 1#8 = 1#8 :=
    (Function.isPeriodicPt_minimalPeriod gfDoubleByte 1#8).trans_dvd hn
  have divisors : ∀ d ∈ Nat.divisors 255, d = 255 ∨ d ∣ 15 ∨ d ∣ 51 ∨ d ∣ 85 := by decide
  obtain h | h | h | h := divisors _ (Nat.mem_divisors.mpr ⟨dvd, by omega⟩)
  · exact h
  · exact absurd (returns _ h) (by decide)
  · exact absurd (iterate_gfDoubleByte_51 ▸ returns _ h) (by decide)
  · exact absurd (iterate_gfDoubleByte_85 ▸ returns _ h) (by decide)

/-- The 255 doublings of 1 are distinct and nonzero, so they are all the nonzero bytes. -/
theorem exists_iterate_gfDoubleByte_one {x : Byte} (hx : x ≠ 0#8) : ∃ n < 255, gfDoubleByte^[n] 1#8 = x := by
  have surjective : Set.SurjOn (gfDoubleByte^[·] 1#8) (Finset.range 255) (Finset.univ.erase 0#8 : Finset Byte) := by
    refine Finset.surjOn_of_injOn_of_card_le _ (fun n _ => ?_) ?_ ?_
    · simpa using iterate_gfDoubleByte_ne_zero (by decide) n
    · rw [Finset.coe_range, ← minimalPeriod_gfDoubleByte]
      exact Function.iterate_injOn_Iio_minimalPeriod
    · rw [Finset.card_erase_of_mem (Finset.mem_univ _), Finset.card_univ, ← FinEnum.card_eq_fintypeCard,
        FinEnum.card_bitVec, Finset.card_range]
      decide
  simpa using surjective (by simpa using hx)

/-! ### The laws of powers (R102) -/

theorem gfPowLoop_add (x : Byte) (m n : Nat) :
    gfPowLoop x (m + n) = gfMul (gfPowLoop x m) (gfPowLoop x n) := by
  induction n with
  | zero => rw [Nat.add_zero, gfPowLoop, gfMul_one]
  | succ n ih => rw [← Nat.add_assoc, gfPowLoop, gfPowLoop, ih, gfMul_assoc]

/-- Square and multiply after `k` bits of the exponent: the power by those bits, and the `k`-th square. -/
theorem foldl_squareAndMultiply (x n : Byte) (k : Nat) :
    (List.range k).foldl
        (fun rb i => (if n.getLsbD i then gfMul rb.1 rb.2 else rb.1, gfMul rb.2 rb.2)) (1#8, x)
      = (gfPowLoop x (n.toNat % 2 ^ k), gfPowLoop x (2 ^ k)) := by
  induction k with
  | zero => simp [Nat.mod_one, gfPowLoop]
  | succ k ih =>
    rw [List.range_succ, List.foldl_append, ih, List.foldl_cons, List.foldl_nil, Nat.mod_pow_succ,
      ← Nat.toNat_testBit, BitVec.testBit_toNat, ← gfPowLoop_add, ← gfPowLoop_add, ← Nat.two_mul, ← Nat.pow_succ']
    cases n.getLsbD k <;> simp

theorem powBySquaring_eq_gfPow (x n : Byte) : powBySquaring x n = gfPow x n := by
  rw [powBySquaring, foldl_squareAndMultiply, Nat.mod_eq_of_lt n.isLt, gfPow]

@[simp] theorem gfPow_zero (x : Byte) : gfPow x 0#8 = 1#8 := rfl

theorem gfPow_succ (x : Byte) {n : Nat} (hn : n < 255) :
    gfPow x (BitVec.ofNat 8 (n + 1)) = gfMul (gfPow x (BitVec.ofNat 8 n)) x := by
  rw [gfPow, gfPow, BitVec.toNat_ofNat, BitVec.toNat_ofNat, Nat.mod_eq_of_lt (by omega), Nat.mod_eq_of_lt (by omega),
    gfPowLoop]

@[simp] theorem gfPow_one (x : Byte) : gfPow x 1#8 = x := one_gfMul x

theorem zero_gfPow {n : Byte} (hn : n ≠ 0#8) : gfPow 0#8 n = 0#8 := by
  obtain ⟨m, hm⟩ := Nat.exists_eq_succ_of_ne_zero (BitVec.toNat_ne.mp hn)
  rw [gfPow, hm, gfPowLoop, gfMul_zero]

@[simp] theorem one_gfPow (n : Byte) : gfPow 1#8 n = 1#8 := by
  have loop (m : Nat) : gfPowLoop 1#8 m = 1#8 := by
    induction m with
    | zero => rfl
    | succ m ih => rw [gfPowLoop, ih, gfMul_one]
  exact loop n.toNat

theorem gfPowLoop_double (x : Byte) (n : Nat) :
    gfPowLoop (gfDoubleByte x) n = gfDoubleByte^[n] (gfPowLoop x n) := by
  induction n with
  | zero => rfl
  | succ n ih =>
    rw [gfPowLoop, gfPowLoop, ih, gfMul_double_right, gfMul_iterate_double_left, Function.iterate_succ_apply']

/-- The order of every nonzero element divides 255 (R106): to double the base doubles its power 255 times. -/
theorem gfPow_255 {x : Byte} (hx : x ≠ 0#8) : gfPow x 255#8 = 1#8 := by
  obtain ⟨n, -, rfl⟩ := exists_iterate_gfDoubleByte_one hx
  clear hx
  induction n with
  | zero => exact one_gfPow 255#8
  | succ n ih =>
    rw [Function.iterate_succ_apply']
    exact (gfPowLoop_double _ 255).trans ((iterate_gfDoubleByte_255 _).trans ih)

/-- The inverse of R105, one factor short of the power 255. -/
theorem gfMul_gfPow_254 {x : Byte} (hx : x ≠ 0#8) : gfMul x (gfPow x 254#8) = 1#8 := by
  rw [gfMul_comm, ← gfPow_255 hx]
  exact (gfPow_succ x (n := 254) (by omega)).symm

end Sys2Proof.Machine

namespace Sys2Proof.Proofs

open Sys2Proof.Machine

/-- Settles O16, by the bilinearity of `gf_mul`. -/
theorem gfMulFieldLaws : Obligations.GfMulFieldLaws := fun x y =>
  ⟨gfMul_zero x, gfMul_one x, gfMul_comm x y⟩

/-- Settles O19: square and multiply agrees with the loop because `gf_mul` is associative. -/
theorem gfPowIsRepeatedProduct : Obligations.GfPowIsRepeatedProduct :=
  ⟨gfPow_zero, fun x _ hn => gfPow_succ x hn, fun x n => (powBySquaring_eq_gfPow x n).symm⟩

/-- Settles O22, by the laws of `gf_mul`. -/
theorem gfMulCommand : Obligations.GfMulCommand := by
  intro s
  refine ⟨_, exec_eq .gfMul s, rfl, rfl, fun hzero => ?_, fun hone => ?_, fun ha hb => ?_, fun ha hb => ?_, ?_⟩
  all_goals simp only [commandResult, State.setRes_res]
  · obtain ha | hb := hzero
    · rw [ha, zero_gfMul]
    · rw [hb, gfMul_zero]
  · rw [hone, gfMul_one]
  · rw [ha, hb]; rfl
  · rw [ha, hb]; rfl
  · rw [gfMul_comm]; rfl

/-- Settles O23, by the laws of powers and the order of the nonzero elements. -/
theorem gfPowCommand : Obligations.GfPowCommand := by
  intro s
  refine ⟨_, exec_eq .gfPow s, rfl, rfl, fun hn => ?_, fun hx hn => ?_, fun hx => ?_, fun hn => ?_, fun hn hx => ?_,
    fun hn hx => ?_, fun hx hn => ?_⟩
  all_goals simp only [commandResult, State.setRes_res]
  · rw [hn, gfPow_zero]
  · rw [hx, zero_gfPow hn]
  · rw [hx, one_gfPow]
  · rw [hn, gfPow_one]
  · rw [hn, gfPow_255 hx]
  · rw [hn, gfMul_gfPow_254 hx]
  · rw [hx, hn]; rfl

end Sys2Proof.Proofs
end

section
/-! SUPPORT. 41_encoder.md: the bits of the message string and of the bytes it is packed into, ENCODE at a legal and at an
illegal length, and the statements of R121 to R126. -/

namespace Sys2Proof.Machine

open Sys2Proof.Safety

/-! ### Bits and bytes (00_scope.md R13) -/

theorem getD_msbBits {w : Nat} (v : BitVec w) {k : Nat} (hk : k < w) :
    (msbBits v).getD k false = v.getLsbD (w - 1 - k) := by
  simp [msbBits, hk]

/-- The bits of a byte list, read in the order of R13; past its end both sides are zero. -/
theorem getD_flatMap_msbBits (m : List Byte) (k : Nat) :
    (m.flatMap msbBits).getD k false = (m.getD (k / 8) 0#8).getLsbD (7 - k % 8) := by
  induction m generalizing k with
  | nil => simp
  | cons b bs ih =>
    rw [List.flatMap_cons]
    by_cases hk : k < 8
    · rw [List.getD_append _ _ _ _ (by simpa using hk), getD_msbBits b hk, Nat.div_eq_of_lt hk, Nat.mod_eq_of_lt hk,
        List.getD_cons_zero]
    · obtain ⟨n, rfl⟩ := Nat.exists_eq_add_of_le' (Nat.le_of_not_lt hk)
      rw [List.getD_append_right _ _ _ _ (by simp), length_msbBits, Nat.add_sub_cancel, ih,
        Nat.add_div_right n (by decide), Nat.add_mod_right, List.getD_cons_succ]

/-- Shifting bits in from the right leaves the last one in bit 0. -/
theorem getLsbD_foldl_shiftIn (f : Nat → Bool) (n : Nat) {j : Nat} (hj : j < 8) :
    ((List.range n).foldl (fun (acc : Byte) b => acc <<< 1 ||| BitVec.zeroExtend 8 (BitVec.ofBool (f b))) 0#8).getLsbD j
      = (decide (j < n) && f (n - 1 - j)) := by
  induction n generalizing j with
  | zero => simp
  | succ n ih =>
    rw [List.range_succ, List.foldl_append, List.foldl_cons, List.foldl_nil, BitVec.getLsbD_or,
      BitVec.getLsbD_shiftLeft]
    cases j with
    | zero => simp
    | succ j =>
      rw [Nat.add_sub_cancel, ih (by omega)]
      simp [hj, Nat.sub_sub, Nat.add_comm 1 j]

theorem getLsbD_packByte (f : Nat → Bool) {j : Nat} (hj : j < 8) : (packByte f).getLsbD j = f (7 - j) := by
  rw [packByte, getLsbD_foldl_shiftIn f 8 hj, decide_eq_true hj, Bool.true_and]

theorem getLsbD_joinNibbles (a b : Byte) {j : Nat} (hj : j < 8) :
    (joinNibbles a b).getLsbD j = if j < 4 then b.getLsbD (4 + j) else a.getLsbD (j - 4) := by
  rw [joinNibbles, BitVec.getLsbD_or, BitVec.getLsbD_shiftLeft, BitVec.getLsbD_ushiftRight]
  by_cases h : j < 4
  · simp [h]
  · simp [h, hj, BitVec.getLsbD_of_ge b (4 + j) (by omega)]

/-! ### The message bit string (R121) -/

/-- The message bytes below L, read as bits of the message buffer. -/
theorem getLsbD_getD_message (s : State) {n : Nat} (hn : n < 8 * s.msglen.toNat) :
    ((message s).getD (n / 8) 0#8).getLsbD (7 - n % 8) = streamBit s.msg n := by
  rw [streamBit, message, List.getD_eq_getElem?_getD, List.getElem?_take_of_lt (by omega), Vector.getElem?_toList]

/-- The bit string is R121's, and zero past its end. -/
theorem getD_messageStream (s : State) (hs : LegalLength s) (n : Nat) :
    (messageStream s.msglen (message s)).getD n false = messageBit s.msglen s.msg n := by
  have hlen : (message s).length = s.msglen.toNat := length_message s hs.2
  rw [messageStream, List.append_assoc, List.append_assoc]
  by_cases hmode : n < 4
  · rw [List.getD_append _ _ _ _ (by simpa using hmode), getD_msbBits _ hmode, messageBit, if_pos hmode]
    decide +revert
  rw [List.getD_append_right _ _ _ _ (by simpa using hmode), length_msbBits, messageBit, if_neg hmode]
  by_cases hlength : n < 12
  · rw [List.getD_append _ _ _ _ (by simp; omega), getD_msbBits _ (by omega), if_pos hlength]
    congr 1
    omega
  rw [List.getD_append_right _ _ _ _ (by simp; omega), length_msbBits, if_neg hlength, Nat.sub_sub]
  by_cases hmessage : n < 12 + 8 * s.msglen.toNat
  · rw [List.getD_append _ _ _ _ (by rw [length_flatMap_msbBits]; omega), getD_flatMap_msbBits,
      getLsbD_getD_message s (by omega), if_pos hmessage]
  · rw [List.getD_append_right _ _ _ _ (by rw [length_flatMap_msbBits]; omega), if_neg hmessage]
    generalize n - (4 + 8) - _ = k
    by_cases hk : k < 4
    · rw [getD_msbBits _ hk]; simp [Config.term]
    · rw [List.getD_eq_default _ _ (by simpa using hk)]

/-! ### The closed forms are the bits of the string (R122) -/

/-- A message byte, bit by bit, in the order of R13. -/
theorem getLsbD_msgByte (msg : Vector Byte 14) (k : Nat) {j : Nat} (hj : j < 8) :
    (msgByte msg k).getLsbD j = streamBit msg (8 * k + (7 - j)) := by
  have hdiv : (8 * k + (7 - j)) / 8 = k := by omega
  have hmod : 7 - (8 * k + (7 - j)) % 8 = j := by omega
  rw [streamBit, hdiv, hmod, msgByte]

/-- Inside the message, bit n of the string is message bit n - 12. -/
theorem messageBit_of_le {L : Byte} {msg : Vector Byte 14} {n : Nat} (hlow : 12 ≤ n) (hhigh : n < 12 + 8 * L.toNat) :
    messageBit L msg n = streamBit msg (n - 12) := by
  rw [messageBit, if_neg (by omega), if_neg (by omega), if_pos hhigh]

/-- The high nibble of a legal length is zero. -/
theorem getLsbD_eq_false_of_le_14 {L : Byte} (hle : L.toNat ≤ 14) {k : Nat} (hk : 4 ≤ k) : L.getLsbD k = false :=
  Nat.testBit_lt_two_pow (calc
    L.toNat < 2 ^ 4 := by omega
    _ ≤ 2 ^ k := Nat.pow_le_pow_right (by decide) hk)

/-- Each closed form holds eight bits of the string. -/
theorem getLsbD_blockByte {L : Byte} (msg : Vector Byte 14) (hpos : 1 ≤ L.toNat) (hle : L.toNat ≤ 14) {i : Nat}
    (hi : i < L.toNat + 2) {j : Nat} (hj : j < 8) :
    (blockByte L msg i).getLsbD j = messageBit L msg (8 * i + (7 - j)) := by
  fun_cases blockByte L msg i
  case case1 hzero =>
    subst hzero
    by_cases hnibble : j < 4
    · rw [messageBit, if_neg (by omega), if_pos (by omega), getLsbD_eq_false_of_le_14 hle (by omega)]
      decide +revert
    · rw [messageBit, if_pos (by omega)]
      decide +revert
  case case2 =>
    rw [getLsbD_joinNibbles _ _ hj]
    split
    · rw [getLsbD_msgByte _ _ (by omega), messageBit_of_le (by omega) (by omega)]
      congr 1
      omega
    · rw [messageBit, if_neg (by omega), if_pos (by omega)]
      congr 1
      omega
  case case3 =>
    rw [getLsbD_joinNibbles _ _ hj, messageBit_of_le (by omega) (by omega)]
    split
    all_goals
      rw [getLsbD_msgByte _ _ (by omega)]
      congr 1
      omega
  case case4 =>
    rw [BitVec.getLsbD_shiftLeft]
    by_cases hnibble : j < 4
    · rw [messageBit, if_neg (by omega), if_neg (by omega), if_neg (by omega)]
      simp [hnibble]
    · rw [getLsbD_msgByte _ _ (by omega), messageBit_of_le (by omega) (by omega), decide_eq_true hj,
        decide_eq_false hnibble, Bool.not_false, Bool.true_and, Bool.true_and]
      congr 1
      omega
  case case5 | case6 => omega

/-- From byte L + 2 on the closed form is the pads, whatever the message is. -/
theorem blockByte_of_le {L : Byte} (msg : Vector Byte 14) {i : Nat} (hi : L.toNat + 2 ≤ i) :
    blockByte L msg i = if (i - (L.toNat + 2)) % 2 = 0 then 236#8 else 17#8 := by
  rw [blockByte, if_neg (by omega), if_neg (by omega), if_neg (by omega), if_neg (by omega)]

/-! ### The block ENCODE writes (R122 to R124) -/

theorem getD_repack (S : List Bool) {i n : Nat} (hi : i < n) :
    (repack S n).getD i 0#8 = packByte fun b => S.getD (8 * i + b) false := by
  simp [repack, hi]

theorem getD_padBytes {k n : Nat} (hk : k < n) :
    (padBytes n).getD k 0#8 = if k % 2 = 0 then 236#8 else 17#8 := by
  simp [padBytes, hk, Config.pad0, Config.pad1]

/-- A content byte, bit by bit. -/
theorem getLsbD_encodeBlock (s : State) (hs : LegalLength s) {i : Nat} (h : i < 16) (hi : i < s.msglen.toNat + 2)
    {j : Nat} (hj : j < 8) :
    (encodeBlock s.msglen (message s))[i].getLsbD j = messageBit s.msglen s.msg (8 * i + (7 - j)) := by
  rw [encodeBlock, Vector.getElem_ofFn, List.getD_append _ _ _ _ (by simpa using hi), getD_repack _ hi,
    getLsbD_packByte _ hj, getD_messageStream s hs]

theorem getElem_encodeBlock_of_le (L : Byte) (m : List Byte) {i : Nat} (h : i < 16) (hi : L.toNat + 2 ≤ i) :
    (encodeBlock L m)[i] = if (i - (L.toNat + 2)) % 2 = 0 then 236#8 else 17#8 := by
  rw [encodeBlock, Vector.getElem_ofFn, List.getD_append_right _ _ _ _ (by simpa using hi), length_repack,
    getD_padBytes (by omega)]

/-- Every byte of the block is its closed form. -/
theorem getElem_encodeBlock (s : State) (hs : LegalLength s) {i : Nat} (h : i < 16) :
    (encodeBlock s.msglen (message s))[i] = blockByte s.msglen s.msg i := by
  by_cases hi : i < s.msglen.toNat + 2
  · refine BitVec.eq_of_getLsbD_eq fun j hj => ?_
    rw [getLsbD_encodeBlock s hs h hi hj, getLsbD_blockByte s.msg hs.1 hs.2 hi hj]
  · rw [getElem_encodeBlock_of_le _ _ h (by omega), blockByte_of_le s.msg (by omega)]

/-! ### ENCODE (R125) -/

theorem checkLength_of_legalLength (f : State → State) {s : State} (hs : LegalLength s) : checkLength f s = f s := by
  rw [checkLength, if_pos ((lengthLegal_iff s.msglen).mpr hs)]

theorem checkLength_of_not_legalLength (f : State → State) {s : State} (hs : ¬ LegalLength s) :
    checkLength f s = s.setStatus (s.status.record .lenErr) := by
  rw [checkLength, (lengthLegal_eq_false_iff s).mpr hs, if_neg Bool.false_ne_true, raise_eq]

theorem exec_encode_of_legalLength {s : State} (hs : LegalLength s) : exec .encode s = .next (formatMessage s) := by
  rw [exec_eq, commandResult, checkLength_of_legalLength _ hs]

/-- The stage changes CW alone. -/
theorem formatMessage_eq_setCw (s : State) : formatMessage s = s.setCw (formatMessage s).cw := by
  rw [formatMessage_cw, formatMessage]

theorem getElem_formatMessage_cw (s : State) (i : Nat) (h : i < 26) :
    (formatMessage s).cw[i] = if h16 : i < 16 then (encodeBlock s.msglen (message s))[i] else s.cw[i] := by
  simp only [formatMessage_cw, getElem_withData]

theorem take_toList_withData (cw : Vector Byte 26) (b : Vector Byte 16) :
    (withData cw b).toList.take 16 = b.toList := by
  refine List.ext_getElem (by simp) fun i hi hi' => ?_
  have h16 : i < 16 := by simpa using hi'
  simp [getElem_withData, h16]

/-- The content bits of CW are the bit string. -/
theorem streamBit_formatMessage_cw (s : State) (hs : LegalLength s) {n : Nat} (hn : n < 16 + 8 * s.msglen.toNat) :
    streamBit (formatMessage s).cw n = messageBit s.msglen s.msg n := by
  have hle : s.msglen.toNat ≤ 14 := hs.2
  have hbit : 8 * (n / 8) + (7 - (7 - n % 8)) = n := by omega
  rw [streamBit, Vector.getElem?_eq_getElem (by omega), Option.getD_some, getElem_formatMessage_cw,
    dif_pos (by omega), getLsbD_encodeBlock s hs (by omega) (by omega) (by omega), hbit]

/-! ### No command reads MSG past L (R126) -/

theorem State.setRes_setMsg (s : State) (m : Vector Byte 14) (v : Byte) :
    (s.setMsg m).setRes v = (s.setRes v).setMsg m := rfl

theorem State.setCw_setMsg (s : State) (m : Vector Byte 14) (v : Vector Byte 26) :
    (s.setMsg m).setCw v = (s.setCw v).setMsg m := rfl

theorem State.setMat_setMsg (s : State) (m : Vector Byte 14) (v : Matrix) :
    (s.setMsg m).setMat v = (s.setMat v).setMsg m := rfl

theorem State.setStatus_setMsg (s : State) (m : Vector Byte 14) (v : Status) :
    (s.setMsg m).setStatus v = (s.setStatus v).setMsg m := rfl

@[simp] theorem appendEcc_setMsg (s : State) (m : Vector Byte 14) :
    appendEcc (s.setMsg m) = (appendEcc s).setMsg m := by
  simp [appendEcc, State.setCw_setMsg]

@[simp] theorem placeSymbol_setMsg (s : State) (m : Vector Byte 14) :
    placeSymbol (s.setMsg m) = (placeSymbol s).setMsg m := by
  simp [placeSymbol, State.setMat_setMsg]

/-- ENCODE's stage reads MSG through the message alone. -/
theorem formatMessage_setMsg {s : State} {m : Vector Byte 14} (hm : message (s.setMsg m) = message s) :
    formatMessage (s.setMsg m) = (formatMessage s).setMsg m := by
  simp [formatMessage, hm, State.setCw_setMsg]

theorem checkLength_setMsg {f : State → State} {s : State} {m : Vector Byte 14}
    (hf : f (s.setMsg m) = (f s).setMsg m) : checkLength f (s.setMsg m) = (checkLength f s).setMsg m := by
  cases hlen : lengthLegal s.msglen <;> simp [checkLength, hlen, hf, State.setStatus_setMsg]

/-- A command reads MSG through the message alone. -/
theorem commandResult_setMsg (i : Instr) {s : State} {m : Vector Byte 14}
    (hm : message (s.setMsg m) = message s) : commandResult i (s.setMsg m) = (commandResult i s).setMsg m := by
  cases i with
  | nop | gfMul | gfPow | maskQ | clrerr | illegal => rfl
  | eccRem => exact appendEcc_setMsg s m
  | encode => exact checkLength_setMsg (formatMessage_setMsg hm)
  | place => exact checkLength_setMsg (placeSymbol_setMsg s m)
  | run =>
    refine checkLength_setMsg (f := fun s => placeSymbol (appendEcc (formatMessage s))) ?_
    rw [formatMessage_setMsg hm, appendEcc_setMsg, placeSymbol_setMsg]

theorem message_setMsg_of_agree {s : State} {m : Vector Byte 14}
    (h : ∀ (j : Nat) (hj : j < 14), j < s.msglen.toNat → m[j] = s.msg[j]) : message (s.setMsg m) = message s := by
  refine List.ext_getElem (by simp [message]) fun j hj _ => ?_
  obtain ⟨hL, h14⟩ : j < s.msglen.toNat ∧ j < 14 := by simpa [message] using hj
  simpa [message] using h j h14 hL

end Sys2Proof.Machine

namespace Sys2Proof.Proofs

open Sys2Proof.Machine Sys2Proof.Safety

/-- Settles O26, by the closed forms of the block's bytes. -/
theorem encodeCommand : Obligations.EncodeCommand := by
  refine ⟨fun s hs => ⟨_, exec_encode_of_legalLength hs, formatMessage_eq_setCw s, fun i h => ?_, fun i h hi => ?_⟩,
    fun s hs => ?_, fun s hL hm => ?_⟩
  · rw [getElem_formatMessage_cw, dif_pos h, getElem_encodeBlock s hs h]
  · rw [getElem_formatMessage_cw, dif_neg (by omega)]
  · rw [exec_eq, commandResult, checkLength_of_not_legalLength _ hs]
    rfl
  · refine ⟨_, exec_encode_of_legalLength (by rw [LegalLength, hL]; decide), ?_⟩
    rw [formatMessage_cw, take_toList_withData, message, hL, BitVec.toNat_ofNat, hm]
    rfl

/-- Settles O27: the content bytes of the block are the bits of the string. -/
theorem encodeLaysOutBitString : Obligations.EncodeLaysOutBitString := fun s hs =>
  ⟨_, exec_encode_of_legalLength hs, fun _ hn => streamBit_formatMessage_cw s hs hn⟩

/-- Settles O28: every command reads MSG through the message MSG[0..L-1]. -/
theorem messageTailIgnored : Obligations.MessageTailIgnored := by
  intro i s m h
  refine ⟨_, exec_eq i s, (exec_eq i (s.setMsg m)).trans ?_⟩
  rw [commandResult_setMsg i (message_setMsg_of_agree h)]
  rfl

end Sys2Proof.Proofs
end

section
/-! SUPPORT. 42_ecc.md: the rows of the division that change nothing, what ECC_REM reads and writes, and the statement of
R144 and R145. -/

namespace Sys2Proof.Machine

/-! ### The remainder (R142) -/

/-- A row whose factor is zero changes nothing. -/
theorem divideRow_of_factor_eq_zero (g : Vector Byte 11) {a : Vector Byte 26} {i : Nat}
    (h : a[i]?.getD 0#8 = 0#8) : divideRow g a i = a := by
  have turn (j : Nat) : a.setIfInBounds (i + j) (a[i + j]?.getD 0#8) = a := by
    refine Vector.ext fun k hk => ?_
    rw [Vector.getElem_setIfInBounds hk]
    split
    · subst k; simp [hk]
    · rfl
  rw [divideRow, h]
  simp only [gfMul_zero, BitVec.xor_zero]
  exact List.foldlRecOn (motive := (· = a)) _ _ rfl fun b hb j _ => by rw [hb, turn]

theorem extendBlock_zero : extendBlock (Vector.replicate 16 0#8) = Vector.replicate 26 0#8 := by
  refine Vector.ext fun i hi => ?_
  simp [extendBlock]

/-- The zero block leaves no remainder, whatever it is divided by. -/
theorem remainder_zero (g : Vector Byte 11) :
    remainder (Vector.replicate 16 0#8) g = Vector.replicate 10 0#8 := by
  have rows : (List.range 16).foldl (divideRow g) (Vector.replicate 26 0#8) = Vector.replicate 26 0#8 := by
    refine List.foldlRecOn (motive := (· = Vector.replicate 26 0#8)) _ _ rfl fun a ha i _ => ?_
    rw [ha, divideRow_of_factor_eq_zero g]
    by_cases hi : i < 26 <;> simp [hi]
  rw [remainder, extendBlock_zero, rows]
  refine Vector.ext fun k hk => ?_
  simp [eccBlock]

/-- The example of R144. -/
theorem remainder_example :
    remainder #v[64#8, 149#8, 6#8, 22#8, 118#8, 86#8, 68#8, 247#8, 87#8, 66#8, 16#8, 236#8, 17#8, 236#8, 17#8, 236#8] Rom.gen
      = #v[74#8, 190#8, 29#8, 185#8, 203#8, 209#8, 185#8, 63#8, 7#8, 116#8] := by
  decide +kernel

/-! ### ECC_REM (R144, R145) -/

@[simp] theorem State.setCw_setCw (s : State) (v w : Vector Byte 26) : (s.setCw v).setCw w = s.setCw w := rfl

theorem State.setCw_setMsglen (s : State) (L : Byte) (v : Vector Byte 26) :
    (s.setMsglen L).setCw v = (s.setCw v).setMsglen L := rfl

/-- The stage changes CW alone. -/
theorem appendEcc_eq_setCw (s : State) : appendEcc s = s.setCw (appendEcc s).cw := by
  rw [appendEcc_cw, appendEcc]

theorem getElem_appendEcc_cw_of_lt (s : State) {i : Nat} (h : i < 16) : (appendEcc s).cw[i] = s.cw[i] := by
  simp only [appendEcc_cw, getElem_withEcc, dif_pos h]

theorem eccBlock_appendEcc_cw (s : State) : eccBlock (appendEcc s).cw = remainder (dataBlock s.cw) Rom.gen := by
  rw [appendEcc_cw, eccBlock_withEcc]

/-- The old ECC Block is not read. -/
theorem appendEcc_setCw_withEcc (s : State) (e : Vector Byte 10) :
    appendEcc (s.setCw (withEcc s.cw e)) = appendEcc s := by
  rw [appendEcc, State.setCw_cw, dataBlock_withEcc, withEcc_withEcc, State.setCw_setCw, appendEcc]

/-- MSGLEN is not read. -/
theorem appendEcc_setMsglen (s : State) (L : Byte) : appendEcc (s.setMsglen L) = (appendEcc s).setMsglen L := by
  rw [appendEcc, State.setMsglen_cw, State.setCw_setMsglen, appendEcc]

end Sys2Proof.Machine

namespace Sys2Proof.Proofs

open Sys2Proof.Machine

/-- Settles O29: ECC_REM reads CW[0..15] alone and writes its remainder, which is zero for the zero block. -/
theorem eccRemCommand : Obligations.EccRemCommand := by
  intro s
  refine ⟨_, exec_eq .eccRem s, appendEcc_eq_setCw s, fun i h => getElem_appendEcc_cw_of_lt s h,
    eccBlock_appendEcc_cw s, fun e => ?_, fun L => ?_, fun hzero => ?_, fun hblock => ?_⟩
  · exact (exec_eq .eccRem _).trans (congrArg _ (appendEcc_setCw_withEcc s e))
  · exact (exec_eq .eccRem _).trans (congrArg _ (appendEcc_setMsglen s L))
  · rw [← remainder_zero Rom.gen, ← hzero]
    exact eccBlock_appendEcc_cw s
  · rw [← remainder_example, ← hblock]
    exact eccBlock_appendEcc_cw s

end Sys2Proof.Proofs
end

section
/-! SUPPORT. 44_masker.md: the coordinate mask as a byte, and the statement of R174. The two values MASK_Q answers
are the parity rule of R170. -/

namespace Sys2Proof.Machine

/-! ### The coordinate mask (R170) and its byte -/

theorem byteOfBit_maskCoord_of_even {x y : Nat} (h : (x + y) % 2 = 0) : byteOfBit (maskCoord x y) = 0x01#8 := by
  have hbit : maskCoord x y = true := beq_iff_eq.mpr h
  rw [hbit]
  rfl

theorem byteOfBit_maskCoord_of_odd {x y : Nat} (h : (x + y) % 2 = 1) : byteOfBit (maskCoord x y) = 0x00#8 := by
  have hbit : maskCoord x y = false := by rw [maskCoord, h]; rfl
  rw [hbit]
  rfl

/-! ### MASK_Q (R174) -/

/-- CTRL and MSGLEN are not read, and are kept. -/
theorem commandResult_maskQ_setCtrl_setMsglen (s : State) (c : Ctrl) (L : Byte) :
    commandResult .maskQ ((s.setCtrl c).setMsglen L) = ((commandResult .maskQ s).setCtrl c).setMsglen L := rfl

end Sys2Proof.Machine

namespace Sys2Proof.Proofs

open Sys2Proof.Machine

/-- Settles O24, by the parity rule of the coordinate mask. -/
theorem maskQCommand : Obligations.MaskQCommand := by
  intro s
  have heven (h : (s.opa.toNat + s.opb.toNat) % 2 = 0) : (commandResult .maskQ s).res = 0x01#8 :=
    byteOfBit_maskCoord_of_even h
  have hodd (h : (s.opa.toNat + s.opb.toNat) % 2 = 1) : (commandResult .maskQ s).res = 0x00#8 :=
    byteOfBit_maskCoord_of_odd h
  refine ⟨_, exec_eq .maskQ s, rfl, heven, hodd, fun c L => ?_, fun ha hb => heven ?_, fun ha hb => hodd ?_⟩
  · exact (exec_eq .maskQ _).trans (congrArg _ (commandResult_maskQ_setCtrl_setMsglen s c L))
  · rw [ha, hb]
    rfl
  · rw [ha, hb]
    rfl

end Sys2Proof.Proofs
end

section
/-! SUPPORT. 45_placer.md: the traversal keeps off the reserved modules, the module writes of a symbol never disagree,
and so each is read back; what PLACE and RUN do to MAT, and the statements of R191 to R200. -/

namespace Sys2Proof.Machine

open Sys2Proof.Safety

/-! ### The traversal (R195 to R197) -/

/-- The traversal with its length. As a definition it is elaborated in turn, so the theorems after it are not elaborated
while the kernel is still busy with the tests above, when no more threads fit in the check's memory. -/
def traversalVector : Vector (Nat × Nat) 208 := ⟨traversal.toArray, by decide +kernel⟩

theorem traversal_length : traversal.length = 208 := traversalVector.size_toArray

/-- The loop only walks column pairs, none further right than where it starts. -/
theorem exists_columnPair_of_mem_traversalFrom {fuel right : Nat} {up : Bool} {p : Nat × Nat}
    (h : p ∈ traversalFrom fuel right up) : ∃ r, 1 ≤ r ∧ r ≤ right ∧ ∃ dir, p ∈ columnPair r dir := by
  induction fuel generalizing right up with
  | zero => cases h
  | succ fuel ih =>
    rw [traversalFrom] at h
    split at h
    · obtain h | h := List.mem_append.mp h
      · exact ⟨_, by split <;> omega, by split <;> omega, _, h⟩
      · obtain ⟨r, hpos, hle, hp⟩ := ih h
        exact ⟨r, hpos, by split at hle <;> omega, hp⟩
    · cases h

/-- A module of a column pair stands in one of its two columns, on the grid's rows, and is not reserved. -/
theorem of_mem_columnPair {right : Nat} {up : Bool} {p : Nat × Nat} (h : p ∈ columnPair right up) :
    right - 1 ≤ p.1 ∧ p.1 ≤ right ∧ p.2 < 21 ∧ reserved p.1 p.2 = false := by
  obtain ⟨turn, hturn, h⟩ := List.mem_flatMap.mp h
  obtain ⟨hp, hfree⟩ := List.mem_filter.mp h
  have hturn := List.mem_range.mp hturn
  refine ⟨?_, ?_, ?_, by simpa using hfree⟩ <;> obtain rfl | rfl := List.mem_pair.mp hp <;> grind

/-- Each turn of a pair is in a row of its own, and visits the right module before the left one. -/
theorem columnPair_nodup {right : Nat} (hpos : 1 ≤ right) (up : Bool) : (columnPair right up).Nodup := by
  refine List.nodup_flatMap.mpr ⟨fun turn _ => List.Nodup.filter _ ?_, ?_⟩
  · have hne : right ≠ right - 1 := by omega
    simpa using hne
  · refine List.nodup_range.imp_of_mem fun {a b} ha hb hne p hpa hpb => hne ?_
    have ha := List.mem_range.mp ha
    have hb := List.mem_range.mp hb
    grind

/-- No module is visited twice: later column pairs are further left. -/
theorem traversalFrom_nodup (fuel right : Nat) (up : Bool) : (traversalFrom fuel right up).Nodup := by
  induction fuel generalizing right up with
  | zero => exact List.nodup_nil
  | succ fuel ih =>
    rw [traversalFrom]
    split
    · have hpos : 1 ≤ if right = 6 then 5 else right := by split <;> omega
      refine List.nodup_append'.mpr ⟨columnPair_nodup hpos up, ih _ _, fun p hpair hlater => ?_⟩
      obtain ⟨hcol, -⟩ := of_mem_columnPair hpair
      obtain ⟨r, hr, hle, dir, hp⟩ := exists_columnPair_of_mem_traversalFrom hlater
      obtain ⟨-, hcol', -⟩ := of_mem_columnPair hp
      omega
    · exact List.nodup_nil

theorem lt_of_mem_traversal {p : Nat × Nat} (h : p ∈ traversal) : p.1 < 21 ∧ p.2 < 21 := by
  obtain ⟨r, -, hr, dir, hp⟩ := exists_columnPair_of_mem_traversalFrom h
  obtain ⟨-, hcol, hrow, -⟩ := of_mem_columnPair hp
  exact ⟨by omega, hrow⟩

/-- No reserved module carries data. -/
theorem notMem_traversal_of_reserved {x y : Nat} (hres : reserved x y = true) : (x, y) ∉ traversal := by
  intro h
  obtain ⟨r, -, -, dir, hp⟩ := exists_columnPair_of_mem_traversalFrom h
  obtain ⟨-, -, -, hfree⟩ := of_mem_columnPair hp
  rw [hres] at hfree
  cases hfree

theorem getElem?_traversal {k : Nat} (hk : k < 208) : traversal[k]? = some (carrier k) := by
  have hk : k < traversal.length := by rwa [traversal_length]
  rw [carrier, List.getD_eq_getElem _ _ hk, List.getElem?_eq_getElem hk]

/-! ### The module writes (R190) -/

/-- The module a write goes to. -/
def Dot.place (d : Dot) : Nat × Nat := (d.x, d.y)

/-- The writes PLACE makes whatever CTRL and the codeword are. -/
def commonDots : List Dot := finders ++ separators ++ timing ++ darkModule ++ formatDots formatPlaces1

/-- The writes that do not depend on the codeword. -/
def fixedDots (c : Ctrl) : List Dot := commonDots ++ if c.fmt2En then formatDots formatPlaces2 else []

theorem symbolDots_eq (c : Ctrl) (L : Nat) (cw : Vector Byte 26) :
    symbolDots c L cw = fixedDots c ++ dataDots c L cw := by
  simp only [symbolDots, fixedDots, commonDots, formatCopies, List.append_assoc]

theorem fixedDots_sublist (c : Ctrl) : (fixedDots c).Sublist (commonDots ++ formatDots formatPlaces2) := by
  refine (List.Sublist.refl commonDots).append ?_
  split
  · exact List.Sublist.refl _
  · exact List.nil_sublist _

/-- The module (i, j) of a finder (R191). -/
def finderBlack (i j : Nat) : Bool := max (finderDistance i) (finderDistance j) != 2

/-- The colours of the fixed patterns by region: the finders, row 6 and column 6 with the timing patterns, the dark
module, the format copies; the separators are the rest and white (R191 to R194). -/
def patternBlack (x y : Nat) : Bool :=
  if x ≤ 6 ∧ y ≤ 6 then finderBlack x y
  else if 14 ≤ x ∧ y ≤ 6 then finderBlack (x - 14) y
  else if x ≤ 6 ∧ 14 ≤ y then finderBlack x (y - 14)
  else if x = 6 ∨ y = 6 then (x + y) % 2 == 0
  else if x = 8 ∧ y = 13 then true
  else (formatPlaces1 ++ formatPlaces2).zipIdx.any fun p => p.1 == (x, y) && Rom.fmt.getLsbD (p.2 % 15)

/-- The patterns and format copies lie on reserved modules of the grid (R195). -/
theorem patternDots_reserved :
    ∀ d ∈ commonDots ++ formatDots formatPlaces2, d.x < 21 ∧ d.y < 21 ∧ reserved d.x d.y = true := by
  simp only [commonDots, finders, List.forall_mem_append, and_assoc]
  refine ⟨?_, ?_, ?_, ?_, ?_, ?_, ?_, ?_⟩ <;> decide

/-- A pattern's write gives its module the colour of the module's region. -/
theorem patternDots_black : ∀ d ∈ commonDots ++ formatDots formatPlaces2, d.black = patternBlack d.x d.y := by
  simp only [commonDots, finders, List.forall_mem_append, and_assoc]
  refine ⟨?_, ?_, ?_, ?_, ?_, ?_, ?_, ?_⟩ <;> decide

/-- No pattern but the second copy touches that copy's modules. -/
theorem commonDots_place_notMem_formatPlaces2 : ∀ d ∈ commonDots, d.place ∉ formatPlaces2 := by
  simp only [commonDots, finders, List.forall_mem_append, and_assoc]
  refine ⟨?_, ?_, ?_, ?_, ?_, ?_, ?_⟩ <;> decide

theorem fixedDots_reserved (c : Ctrl) {d : Dot} (h : d ∈ fixedDots c) :
    d.x < 21 ∧ d.y < 21 ∧ reserved d.x d.y = true :=
  patternDots_reserved d ((fixedDots_sublist c).subset h)

/-- Patterns never give one module two values, since the module alone decides the colour. -/
theorem fixedDots_pairwise_agree (c : Ctrl) :
    (fixedDots c).Pairwise fun d e => d.x = e.x ∧ d.y = e.y → d.black = e.black := by
  refine List.pairwise_of_forall_mem_list fun d hd e he hde => ?_
  rw [patternDots_black d ((fixedDots_sublist c).subset hd), hde.1, hde.2,
    patternDots_black e ((fixedDots_sublist c).subset he)]

section
variable (c : Ctrl) (L : Nat) (cw : Vector Byte 26)

/-- The data bits are written along the traversal. -/
theorem map_place_dataDots : (dataDots c L cw).map Dot.place = traversal :=
  List.map_map.trans (List.zipIdx_map_fst 0 traversal)

theorem place_mem_traversal {d : Dot} (h : d ∈ dataDots c L cw) : d.place ∈ traversal :=
  map_place_dataDots c L cw ▸ List.mem_map_of_mem h

theorem mem_dataDots {k : Nat} (hk : k < 208) :
    { x := (carrier k).1, y := (carrier k).2,
      black := streamBit cw k ^^ inverted c.maskExempt L k (carrier k).1 (carrier k).2 } ∈ dataDots c L cw :=
  List.mem_map.mpr ⟨(carrier k, k), List.mk_mem_zipIdx_iff_getElem?.mpr (getElem?_traversal hk), rfl⟩

theorem dataDots_pairwise_ne : (dataDots c L cw).Pairwise fun d e => d.place ≠ e.place := by
  rw [← List.pairwise_map, map_place_dataDots]
  exact traversalFrom_nodup _ _ _

theorem symbolDots_lt : ∀ d ∈ symbolDots c L cw, d.x < 21 ∧ d.y < 21 := by
  intro d hd
  rw [symbolDots_eq] at hd
  obtain hfix | hdata := List.mem_append.mp hd
  · obtain ⟨hx, hy, -⟩ := fixedDots_reserved c hfix
    exact ⟨hx, hy⟩
  · exact lt_of_mem_traversal (place_mem_traversal c L cw hdata)

/-- The writes of a symbol never give one module two values: the patterns agree among themselves, the traversal visits
no module twice, and it keeps off the patterns' reserved modules. -/
theorem symbolDots_pairwise_agree :
    (symbolDots c L cw).Pairwise fun d e => d.x = e.x ∧ d.y = e.y → d.black = e.black := by
  have hdata : (dataDots c L cw).Pairwise fun d e => d.x = e.x ∧ d.y = e.y → d.black = e.black :=
    (dataDots_pairwise_ne c L cw).imp fun hne hde => absurd (Prod.ext hde.1 hde.2) hne
  rw [symbolDots_eq]
  refine List.pairwise_append.mpr ⟨fixedDots_pairwise_agree c, hdata, fun d hd e he hde => ?_⟩
  have hsame : d.place = e.place := Prod.ext hde.1 hde.2
  have hmem : d.place ∈ traversal := hsame ▸ place_mem_traversal c L cw he
  obtain ⟨-, -, hres⟩ := fixedDots_reserved c hd
  exact (notMem_traversal_of_reserved hres hmem).elim

/-! ### Reading the symbol back (R190, R199) -/

/-- Every write of the placer is read back. -/
theorem get_symbolMatrix_of_mem {x y : Nat} {b : Bool} (h : { x := x, y := y, black := b } ∈ symbolDots c L cw) :
    (symbolMatrix c L cw).get x y = b :=
  Matrix.get_putAll_of_mem _ _ (symbolDots_lt c L cw) (symbolDots_pairwise_agree c L cw) h

theorem mem_symbolDots {d : Dot} :
    d ∈ symbolDots c L cw ↔ d ∈ finders ∨ d ∈ separators ∨ d ∈ timing ∨ d ∈ darkModule
      ∨ d ∈ formatCopies c ∨ d ∈ dataDots c L cw := by
  simp only [symbolDots, List.mem_append, or_assoc]

/-! ### The fixed patterns (R191 to R193) -/

theorem finderDistance_eq_natAbs (i : Nat) : finderDistance i = ((i : Int) - 3).natAbs := by
  rw [finderDistance]
  omega

theorem mem_finderDots (ox oy : Nat) {i j : Nat} (hi : i ≤ 6) (hj : j ≤ 6) :
    { x := ox + i, y := oy + j,
      black := decide (max ((i : Int) - 3).natAbs ((j : Int) - 3).natAbs ≠ 2) } ∈ finderDots ox oy := by
  refine List.mem_flatMap.mpr ⟨j, List.mem_range.mpr (by omega),
    List.mem_map.mpr ⟨i, List.mem_range.mpr (by omega), ?_⟩⟩
  simp only [finderDistance_eq_natAbs, bne, ne_eq, decide_not, beq_eq_decide]

theorem findersDrawn_symbolMatrix : FindersDrawn (symbolMatrix c L cw) := by
  intro o ho i hi j hj
  refine get_symbolMatrix_of_mem c L cw ((mem_symbolDots c L cw).mpr (.inl ?_))
  have hdot := mem_finderDots o.1 o.2 hi hj
  simp only [List.mem_cons, List.not_mem_nil, or_false] at ho
  obtain rfl | rfl | rfl := ho
  · exact List.mem_append_left _ (List.mem_append_left _ hdot)
  · exact List.mem_append_left _ (List.mem_append_right _ hdot)
  · exact List.mem_append_right _ hdot

/-- The six strips of R192, module by module. -/
theorem mem_separators {x y : Nat}
    (h : (x = 7 ∧ y ≤ 7) ∨ (x ≤ 7 ∧ y = 7) ∨ (x = 13 ∧ y ≤ 7) ∨ (13 ≤ x ∧ x ≤ 20 ∧ y = 7)
      ∨ (x = 7 ∧ 13 ≤ y ∧ y ≤ 20) ∨ (x ≤ 7 ∧ y = 13)) :
    { x := x, y := y, black := false } ∈ separators := by
  simp only [separators, List.mem_append, List.mem_map, List.mem_range, Dot.mk.injEq, and_true, or_assoc]
  obtain h | h | h | h | h | h := h
  · exact .inl ⟨y, by omega⟩
  · exact .inr (.inl ⟨x, by omega⟩)
  · exact .inr (.inr (.inl ⟨y, by omega⟩))
  · exact .inr (.inr (.inr (.inl ⟨x - 13, by omega⟩)))
  · exact .inr (.inr (.inr (.inr (.inl ⟨y - 13, by omega⟩))))
  · exact .inr (.inr (.inr (.inr (.inr ⟨x, by omega⟩))))

theorem separatorsWhite_symbolMatrix : SeparatorsWhite (symbolMatrix c L cw) := by
  have white {x y : Nat} (h : { x := x, y := y, black := false } ∈ separators) :
      (symbolMatrix c L cw).get x y = false :=
    get_symbolMatrix_of_mem c L cw ((mem_symbolDots c L cw).mpr (.inr (.inl h)))
  refine ⟨fun k hk => ⟨?_, ?_⟩, fun y hy => ?_, fun x hlow hhigh => ?_, fun y hlow hhigh => ?_, fun x hx => ?_⟩
  all_goals exact white (mem_separators (by omega))

theorem mem_timing {k : Nat} (hlow : 8 ≤ k) (hhigh : k ≤ 12) :
    { x := k, y := 6, black := decide (k % 2 = 0) } ∈ timing
      ∧ { x := 6, y := k, black := decide (k % 2 = 0) } ∈ timing := by
  interval_cases k <;> decide

theorem timingDrawn_symbolMatrix : TimingDrawn (symbolMatrix c L cw) := by
  refine ⟨fun k hlow hhigh => ?_, get_symbolMatrix_of_mem c L cw ((mem_symbolDots c L cw).mpr ?_)⟩
  · obtain ⟨hrow, hcol⟩ := mem_timing hlow hhigh
    exact ⟨get_symbolMatrix_of_mem c L cw ((mem_symbolDots c L cw).mpr (.inr (.inr (.inl hrow)))),
      get_symbolMatrix_of_mem c L cw ((mem_symbolDots c L cw).mpr (.inr (.inr (.inl hcol))))⟩
  · exact .inr (.inr (.inr (.inl (List.mem_singleton.mpr rfl))))

/-! ### The format copies (R194) -/

theorem mem_formatDots {places : List (Nat × Nat)} {i : Nat} {p : Nat × Nat} (h : places[i]? = some p) :
    { x := p.1, y := p.2, black := Rom.fmt.getLsbD i } ∈ formatDots places :=
  List.mem_map.mpr ⟨(p, i), List.mk_mem_zipIdx_iff_getElem?.mpr h, rfl⟩

theorem getElem?_formatPlaces1 : ∀ i ≤ 14, formatPlaces1[i]? = some (formatPlace1 i) := by decide

theorem getElem?_formatPlaces2 : ∀ i ≤ 14, formatPlaces2[i]? = some (formatPlace2 i) := by decide

theorem reserved_formatPlace1 : ∀ i ≤ 14, reserved (formatPlace1 i).1 (formatPlace1 i).2 = true := by decide

theorem reserved_formatPlace2 : ∀ i ≤ 14, reserved (formatPlace2 i).1 (formatPlace2 i).2 = true := by decide

/-- A copy whose dots are written is drawn. -/
theorem formatDrawn_symbolMatrix {places : List (Nat × Nat)} {place : Nat → Nat × Nat}
    (hplaces : ∀ i ≤ 14, places[i]? = some (place i)) (hwritten : formatDots places ⊆ formatCopies c) :
    FormatDrawn place (symbolMatrix c L cw) := fun i hi =>
  get_symbolMatrix_of_mem c L cw
    ((mem_symbolDots c L cw).mpr (.inr (.inr (.inr (.inr (.inl (hwritten (mem_formatDots (hplaces i hi)))))))))

theorem formatDrawn1_symbolMatrix : FormatDrawn formatPlace1 (symbolMatrix c L cw) :=
  formatDrawn_symbolMatrix c L cw getElem?_formatPlaces1 (List.subset_append_left _ _)

theorem formatDrawn2_symbolMatrix (h : c.fmt2En = true) : FormatDrawn formatPlace2 (symbolMatrix c L cw) := by
  refine formatDrawn_symbolMatrix c L cw getElem?_formatPlaces2 ?_
  rw [formatCopies, if_pos h]
  exact List.subset_append_right _ _

/-- Without the second copy no write touches its modules: no pattern does, and they are reserved. -/
theorem formatWhite2_symbolMatrix (h : c.fmt2En = false) : FormatWhite formatPlace2 (symbolMatrix c L cw) := by
  intro i hi
  rw [symbolMatrix, Matrix.get_putAll_of_untouched _ _ _ _ (symbolDots_lt c L cw), Matrix.get_blank]
  intro d hd hat
  have hplace : d.place = formatPlace2 i := Prod.ext hat.1 hat.2
  rw [symbolDots_eq] at hd
  obtain hfix | hdata := List.mem_append.mp hd
  · rw [fixedDots, h, if_neg Bool.false_ne_true, List.append_nil] at hfix
    exact commonDots_place_notMem_formatPlaces2 d hfix
      (hplace ▸ List.mem_of_getElem? (getElem?_formatPlaces2 i hi))
  · exact notMem_traversal_of_reserved (reserved_formatPlace2 i hi) (hplace ▸ place_mem_traversal c L cw hdata)

theorem fixedPatterns_symbolMatrix : FixedPatterns c.fmt2En (symbolMatrix c L cw) :=
  ⟨findersDrawn_symbolMatrix c L cw, separatorsWhite_symbolMatrix c L cw, timingDrawn_symbolMatrix c L cw,
    formatDrawn1_symbolMatrix c L cw, formatDrawn2_symbolMatrix c L cw, formatWhite2_symbolMatrix c L cw⟩

/-! ### The data bits (R198, 44_masker.md R172) -/

theorem inverted_carrier_iff (maskExempt : Bool) (L k : Nat) :
    inverted maskExempt L k (carrier k).1 (carrier k).2 = true ↔ Inverted maskExempt L k := by
  simp only [inverted, maskCoord, isExempt, Inverted, Exempt, Bool.and_eq_true, Bool.or_eq_true, Bool.not_eq_true',
    ← Bool.not_eq_true, beq_iff_eq, decide_eq_true_eq]

theorem get_symbolMatrix_carrier {k : Nat} (hk : k < 208) :
    (symbolMatrix c L cw).get (carrier k).1 (carrier k).2
      = (streamBit cw k ^^ inverted c.maskExempt L k (carrier k).1 (carrier k).2) :=
  get_symbolMatrix_of_mem c L cw
    ((mem_symbolDots c L cw).mpr (.inr (.inr (.inr (.inr (.inr (mem_dataDots c L cw hk)))))))

theorem get_symbolMatrix_of_carrier_eq {k x y : Nat} (hk : k < 208) (hp : carrier k = (x, y)) :
    (symbolMatrix c L cw).get x y = (streamBit cw k ^^ inverted c.maskExempt L k x y) := by
  simpa only [hp] using get_symbolMatrix_carrier c L cw hk

theorem dataPlaced_symbolMatrix : DataPlaced c L cw (symbolMatrix c L cw) := by
  intro k hk
  rw [get_symbolMatrix_carrier c L cw hk, ← inverted_carrier_iff]
  exact ⟨fun h => by rw [h, Bool.xor_true], fun h => by rw [Bool.eq_false_of_not_eq_true h, Bool.xor_false]⟩

theorem isSymbol_symbolMatrix : IsSymbol c L cw (symbolMatrix c L cw) :=
  ⟨fixedPatterns_symbolMatrix c L cw, dataPlaced_symbolMatrix c L cw⟩

end

/-- The Full Codeword of R199's example. -/
def exampleCodeword : Vector Byte 26 :=
  #v[64#8, 149#8, 6#8, 22#8, 118#8, 86#8, 68#8, 247#8, 87#8, 66#8, 16#8, 236#8, 17#8, 236#8, 17#8, 236#8,
    74#8, 190#8, 29#8, 185#8, 203#8, 209#8, 185#8, 63#8, 7#8, 116#8]

/-- The data modules of row 0 between the two finders (R197). -/
theorem carrier_row_zero :
    carrier 134 = (12, 0) ∧ carrier 135 = (11, 0) ∧ carrier 136 = (10, 0) ∧ carrier 137 = (9, 0) :=
  ⟨rfl, rfl, rfl, rfl⟩

/-- CTRL in R199's example. -/
def exampleCtrl : Ctrl := { maskExempt := true, fmt2En := false }

/-- Row 0 of R199's example, rule by rule: finder, separator, format bit, four data bits, separator, finder. -/
theorem symbolMatrix_exampleCodeword_row :
    ∀ x < 21, (symbolMatrix exampleCtrl 9 exampleCodeword).get x 0 = (0x1FC07F#21).getLsbD (20 - x) := by
  intro x hx
  have hfinder := findersDrawn_symbolMatrix exampleCtrl 9 exampleCodeword
  obtain ⟨hleft, hright, -⟩ := separatorsWhite_symbolMatrix exampleCtrl 9 exampleCodeword
  obtain ⟨h12, h11, h10, h9⟩ := carrier_row_zero
  obtain h | rfl | rfl | rfl | rfl | rfl | rfl | rfl | h :
      x ≤ 6 ∨ x = 7 ∨ x = 8 ∨ x = 9 ∨ x = 10 ∨ x = 11 ∨ x = 12 ∨ x = 13 ∨ 14 ≤ x := by omega
  · have hrow := hfinder (0, 0) (by decide) x h 0 (by decide)
    rw [Nat.zero_add] at hrow
    exact hrow.trans (by interval_cases x <;> decide)
  · exact (hleft 0 (by decide)).1
  · exact formatDrawn1_symbolMatrix exampleCtrl 9 exampleCodeword 0 (by decide)
  · exact get_symbolMatrix_of_carrier_eq exampleCtrl 9 exampleCodeword (by decide) h9
  · exact get_symbolMatrix_of_carrier_eq exampleCtrl 9 exampleCodeword (by decide) h10
  · exact get_symbolMatrix_of_carrier_eq exampleCtrl 9 exampleCodeword (by decide) h11
  · exact get_symbolMatrix_of_carrier_eq exampleCtrl 9 exampleCodeword (by decide) h12
  · exact hright 0 (by decide)
  · obtain ⟨i, rfl⟩ := Nat.exists_eq_add_of_le h
    have hi : i ≤ 6 := by omega
    exact (hfinder (14, 0) (by decide) i hi 0 (by decide)).trans (by interval_cases i <;> decide)

/-! ### PLACE and RUN (R199, R200) -/

theorem exec_place_of_legalLength {s : State} (hs : LegalLength s) : exec .place s = .next (placeSymbol s) := by
  rw [exec_eq, commandResult, checkLength_of_legalLength _ hs]

theorem exec_run_of_legalLength {s : State} (hs : LegalLength s) :
    exec .run s = .next (placeSymbol (appendEcc (formatMessage s))) := by
  rw [exec_eq, commandResult, checkLength_of_legalLength _ hs]

/-- The stage changes MAT alone. -/
theorem placeSymbol_eq_setMat (s : State) : placeSymbol s = s.setMat (placeSymbol s).mat := by
  rw [placeSymbol_mat, placeSymbol]

theorem State.setCw_setMat (s : State) (m : Matrix) (v : Vector Byte 26) :
    (s.setMat m).setCw v = (s.setCw v).setMat m := rfl

@[simp] theorem State.setMat_setMat (s : State) (m m' : Matrix) : (s.setMat m).setMat m' = s.setMat m' := rfl

@[simp] theorem message_setMat (s : State) (m : Matrix) : message (s.setMat m) = message s := by
  simp [message]

@[simp] theorem formatMessage_setMat (s : State) (m : Matrix) :
    formatMessage (s.setMat m) = (formatMessage s).setMat m := by
  simp [formatMessage, State.setCw_setMat]

@[simp] theorem appendEcc_setMat (s : State) (m : Matrix) : appendEcc (s.setMat m) = (appendEcc s).setMat m := by
  simp [appendEcc, State.setCw_setMat]

/-- The old matrix is not read, and nothing of it survives. -/
@[simp] theorem placeSymbol_setMat (s : State) (m : Matrix) : placeSymbol (s.setMat m) = placeSymbol s := by
  simp [placeSymbol]

/-- The length check reads MSGLEN only, so it changes MAT at most where its effect runs. -/
theorem checkLength_mat_cases (f : State → State) (s : State) :
    (checkLength f s).mat = s.mat ∨ LegalLength s := by
  obtain ⟨hlen, -⟩ | ⟨-, h⟩ := checkLength_cases f s
  · exact .inr ((lengthLegal_iff s.msglen).mp hlen)
  · exact .inl (by rw [h, raise_eq, State.setStatus_mat])

/-- A command other than PLACE and RUN keeps MAT, and these two keep it at an illegal length. -/
theorem commandResult_mat_cases (i : Instr) (s : State) :
    (commandResult i s).mat = s.mat ∨ (LegalLength s ∧ (i = .place ∨ i = .run)) := by
  cases i with
  | nop | gfMul | gfPow | maskQ | clrerr | illegal => exact .inl rfl
  | eccRem => exact .inl (appendEcc_mat s)
  | encode =>
    obtain ⟨-, h⟩ | ⟨-, h⟩ := checkLength_cases formatMessage s <;> exact .inl (by rw [commandResult, h]; simp)
  | place => exact (checkLength_mat_cases placeSymbol s).imp_right fun h => ⟨h, .inl rfl⟩
  | run =>
    exact (checkLength_mat_cases (fun s => placeSymbol (appendEcc (formatMessage s))) s).imp_right
      fun h => ⟨h, .inr rfl⟩

/-- What a host event can do to MAT. -/
theorem serve_mat_cases {e : HostEvent} {s t : State} (h : serve e s = .next t) :
    t.mat = s.mat ∨ (LegalLength s ∧ (e = .wr 0x002#10 0x06#8 ∨ e = .wr 0x002#10 0x07#8)) ∨ e = .reset := by
  obtain ⟨v, rfl, rfl⟩ | ⟨a, v, rfl, -, rfl⟩ | ⟨a, rfl, rfl⟩ | ⟨rfl, rfl⟩ := serve_cases h
  · obtain hkeep | ⟨hlen, hi⟩ := commandResult_mat_cases (decodeCommand v) s
    · exact .inl hkeep
    · refine .inr (.inl ⟨hlen, ?_⟩)
      obtain hi | hi := hi <;> simp [eq_encodeCommand_of_decodeCommand_eq hi, encodeCommand, cmdAddr]
  · exact .inl (storeLocation_mat s _ v)
  · exact .inl rfl
  · exact .inr (.inr rfl)

end Sys2Proof.Machine

namespace Sys2Proof.Proofs

open Sys2Proof.Machine Sys2Proof.Safety

/-- Settles O36: no later write of the placer disagrees with the patterns. -/
theorem placeDrawsFixedPatterns : Obligations.PlaceDrawsFixedPatterns := by
  intro s hs
  refine ⟨_, exec_place_of_legalLength hs, ?_⟩
  rw [placeSymbol_mat]
  exact ⟨findersDrawn_symbolMatrix _ _ _, separatorsWhite_symbolMatrix _ _ _, timingDrawn_symbolMatrix _ _ _⟩

/-- Settles O37: the copies' modules are reserved, so the traversal, which keeps off reserved modules, misses them. -/
theorem placeWritesFormatCopies : Obligations.PlaceWritesFormatCopies := by
  refine ⟨fun s hs => ⟨_, exec_place_of_legalLength hs, ?_⟩, fun i hi => ?_⟩
  · rw [placeSymbol_mat]
    exact ⟨formatDrawn1_symbolMatrix _ _ _, formatDrawn2_symbolMatrix _ _ _, formatWhite2_symbolMatrix _ _ _⟩
  · have h1 := reserved_formatPlace1 i hi
    have h2 := reserved_formatPlace2 i hi
    exact ⟨notMem_traversal_of_reserved h1, notMem_traversal_of_reserved h2, h1, h2⟩

/-- Settles O38: each data bit's write is the only one at its module. -/
theorem placeMasksDataBits : Obligations.PlaceMasksDataBits := by
  intro s hs
  refine ⟨_, exec_place_of_legalLength hs, ?_⟩
  rw [placeSymbol_mat]
  exact dataPlaced_symbolMatrix _ _ _

/-- Settles O39: PLACE past its length check stores the symbol of CW, L and CTRL, whatever MAT was. -/
theorem placeCommand : Obligations.PlaceCommand := by
  refine ⟨fun s hs => ⟨_, exec_place_of_legalLength hs, placeSymbol_eq_setMat s, ?_, fun m => ?_⟩, fun s hs => ?_,
    fun s hL hc hcw => ?_⟩
  · rw [placeSymbol_mat]
    exact isSymbol_symbolMatrix _ _ _
  · exact (exec_place_of_legalLength (s := s.setMat m) hs).trans (by rw [placeSymbol_setMat])
  · rw [exec_eq, commandResult, checkLength_of_not_legalLength _ hs]
    rfl
  · have hcw' : s.cw = exampleCodeword := Vector.toList_inj.mp hcw
    refine ⟨_, exec_place_of_legalLength (by rw [LegalLength, hL]; decide), ?_⟩
    rw [placeSymbol_mat, hL, hc, hcw']
    exact symbolMatrix_exampleCodeword_row

/-- Settles O55: every other event keeps MAT, and neither PLACE nor RUN reads it. -/
theorem onlyPlaceAndRunWriteMat : Obligations.OnlyPlaceAndRunWriteMat := by
  refine ⟨fun e s t h hreset hmat => ?_, fun i s m hi hs => ?_⟩
  · obtain hkeep | hwrite | he := serve_mat_cases h
    · exact absurd hkeep hmat
    · exact hwrite
    · exact absurd he hreset
  · have hs' : LegalLength (s.setMat m) := hs
    change exec i (s.setMat m) = exec i s
    obtain rfl | rfl := hi
    · rw [exec_place_of_legalLength hs', exec_place_of_legalLength hs, placeSymbol_setMat]
    · rw [exec_run_of_legalLength hs', exec_run_of_legalLength hs, formatMessage_setMat, appendEcc_setMat,
        placeSymbol_setMat]

end Sys2Proof.Proofs
end

section
/-! SUPPORT. 46_control.md: NOP, CLRERR and the codes with no command, and the statements of R220, R222 and R223. -/

namespace Sys2Proof.Machine

/-- A write to CMD performs the command its byte decodes to (20_memory.md R56). -/
theorem serve_wr_cmd (s : State) (v : Byte) : serve (.wr 0x002#10 v) s = exec (decodeCommand v) s := rfl

end Sys2Proof.Machine

namespace Sys2Proof.Proofs

open Sys2Proof.Machine Sys2Proof.Safety Sys2Proof.Laws

/-- Settles O43: the byte 0x00 is NOP's. -/
theorem nopCommand : Obligations.NopCommand := by
  intro s
  have hnop : exec .nop s = .next s := exec_eq .nop s
  have hdecode : decodeCommand 0x00#8 = .nop := RoundTrip.nop rfl
  exact ⟨hnop, by rw [serve_wr_cmd, hdecode, hnop]⟩

/-- Settles O46: of the four things a command can do to STATUS only CLRERR's drops a bit. -/
theorem clrerrCommand : Obligations.ClrerrCommand := by
  intro s
  have hclrerr : exec .clrerr s = .next (s.setStatus Status.clear) := exec_eq .clrerr s
  refine ⟨hclrerr, fun hfree => ?_, fun i t h hdrop => ?_⟩
  · have hclear : Status.clear = s.status := hfree.symm
    rw [hclrerr, hclear]
    rfl
  · obtain rfl : commandResult i s = t := Host.Outcome.next.inj ((exec_eq i s).symm.trans h)
    obtain hkeep | ⟨-, -, hrec⟩ | ⟨-, hrec⟩ | ⟨hi, -⟩ := commandResult_status_cases i s
    · simp [hkeep] at hdrop
    · simp [hrec] at hdrop
    · simp [hrec] at hdrop
    · exact hi

/-- Settles O47: the code takes no part in what an illegal command does. -/
theorem illegalCodeSetsCmdErr : Obligations.IllegalCodeSetsCmdErr := by
  intro s c hc
  have hillegal : exec (.illegal c) s = .next (s.setStatus (s.status.record .cmdErr)) := exec_eq (.illegal c) s
  exact ⟨hillegal, by rw [serve_wr_cmd, decodeCommand_of_le_toNat hc, hillegal]; rfl⟩

end Sys2Proof.Proofs
end

section
/-! SUPPORT. 60_exceptions.md: the length check of ENCODE, PLACE and RUN, and the statement of R241. -/

namespace Sys2Proof.Machine

open Sys2Proof.Safety

/-- At an illegal length the three checked commands only record LEN_ERR: their effects are not reached (R241). -/
theorem commandResult_of_not_legalLength {i : Instr} {s : State} (hi : i = .encode ∨ i = .place ∨ i = .run)
    (hs : ¬ LegalLength s) : commandResult i s = s.setStatus (s.status.record .lenErr) := by
  obtain rfl | rfl | rfl := hi
  · exact checkLength_of_not_legalLength formatMessage hs
  · exact checkLength_of_not_legalLength placeSymbol hs
  · exact checkLength_of_not_legalLength (fun s => placeSymbol (appendEcc (formatMessage s))) hs

end Sys2Proof.Machine

namespace Sys2Proof.Proofs

open Sys2Proof.Machine Sys2Proof.Safety

/-- Settles O49: 0 and 15 onward are the lengths outside 1..14. -/
theorem lengthErrorChangesStatusOnly : Obligations.LengthErrorChangesStatusOnly := by
  intro i s hi hlen
  have hs : ¬ LegalLength s := fun ⟨hmin, hmax⟩ => by omega
  rw [exec_eq, commandResult_of_not_legalLength hi hs]
  rfl

end Sys2Proof.Proofs
end

section
/-! SUPPORT. The step of the machine: it is total and serves the queue in order, a command keeps its operands, and the
invariant of MAT holds at reset and after every step. -/

namespace Sys2Proof.Machine

open Sys2Proof.Safety

/-! ### The symbol is current right after it is placed (70_reset_and_hazards.md R275) -/

theorem matCurrent_placeSymbol (s : State) : MatCurrent (placeSymbol s) := by
  rw [MatCurrent, placeSymbol_mat, placeSymbol_ctrl, placeSymbol_msglen, placeSymbol_cw]

/-- A current symbol has all its fixed patterns. -/
theorem matWellFormed_of_matCurrent {s : State} (h : MatCurrent s) : MatWellFormed s :=
  .inr ⟨s.ctrl.fmt2En, h ▸ fixedPatterns_symbolMatrix _ _ _⟩

/-- A host event keeps MAT, clears it, or leaves the symbol of the state it answers. -/
theorem serve_mat_eq_or_blank_or_current {e : HostEvent} {s t : State} (h : serve e s = .next t) :
    t.mat = s.mat ∨ t.mat = Matrix.blank ∨ MatCurrent t := by
  obtain hkeep | ⟨hlen, rfl | rfl⟩ | rfl := serve_mat_cases h
  · exact .inl hkeep
  · obtain rfl := Host.Outcome.next.inj ((exec_place_of_legalLength hlen).symm.trans h)
    exact .inr (.inr (matCurrent_placeSymbol _))
  · obtain rfl := Host.Outcome.next.inj ((exec_run_of_legalLength hlen).symm.trans h)
    exact .inr (.inr (matCurrent_placeSymbol _))
  · obtain rfl := Host.Outcome.next.inj h
    exact .inr (.inl rfl)

theorem serve_keeps_matWellFormed {e : HostEvent} {s t : State} (hs : MatWellFormed s) (h : serve e s = .next t) :
    MatWellFormed t := by
  obtain hkeep | hblank | hcurrent := serve_mat_eq_or_blank_or_current h
  · rw [MatWellFormed, hkeep]
    exact hs
  · exact .inl hblank
  · exact matWellFormed_of_matCurrent hcurrent

/-! ### What every command leaves alone (10_state.md R21, R26, R27, R29) -/

/-- The length check keeps every item that its effect keeps and that is not STATUS. -/
theorem checkLength_keeps {α : Type} {item : State → α} {f : State → State} (hf : ∀ s, item (f s) = item s)
    (hstatus : ∀ s st, item (State.setStatus s st) = item s) (s : State) : item (checkLength f s) = item s := by
  obtain ⟨-, h⟩ | ⟨-, h⟩ := checkLength_cases f s
  · rw [h, hf]
  · rw [h, raise_eq, hstatus]

/-- A command keeps every item that the setters of its four results keep: STATUS, RES, CW and MAT. -/
theorem commandResult_keeps {α : Type} {item : State → α} (hstatus : ∀ s v, item (State.setStatus s v) = item s)
    (hres : ∀ s v, item (State.setRes s v) = item s) (hcw : ∀ s v, item (State.setCw s v) = item s)
    (hmat : ∀ s v, item (State.setMat s v) = item s) (i : Instr) (s : State) : item (commandResult i s) = item s := by
  have hformat (s : State) : item (formatMessage s) = item s := hcw s _
  have hecc (s : State) : item (appendEcc s) = item s := hcw s _
  have hplace (s : State) : item (placeSymbol s) = item s := hmat s _
  cases i with
  | nop => rfl
  | gfMul | gfPow | maskQ => exact hres s _
  | clrerr | illegal => exact hstatus s _
  | eccRem => exact hecc s
  | encode => exact checkLength_keeps hformat hstatus s
  | place => exact checkLength_keeps hplace hstatus s
  | run =>
    exact checkLength_keeps (f := fun s => placeSymbol (appendEcc (formatMessage s)))
      (fun s => by rw [hplace, hecc, hformat]) hstatus s

section
variable (i : Instr) (s : State)

@[simp] theorem commandResult_ctrl : (commandResult i s).ctrl = s.ctrl :=
  commandResult_keeps State.setStatus_ctrl State.setRes_ctrl State.setCw_ctrl State.setMat_ctrl i s
@[simp] theorem commandResult_msglen : (commandResult i s).msglen = s.msglen :=
  commandResult_keeps State.setStatus_msglen State.setRes_msglen State.setCw_msglen State.setMat_msglen i s
@[simp] theorem commandResult_opa : (commandResult i s).opa = s.opa :=
  commandResult_keeps State.setStatus_opa State.setRes_opa State.setCw_opa State.setMat_opa i s
@[simp] theorem commandResult_opb : (commandResult i s).opb = s.opb :=
  commandResult_keeps State.setStatus_opb State.setRes_opb State.setCw_opb State.setMat_opb i s
@[simp] theorem commandResult_msg : (commandResult i s).msg = s.msg :=
  commandResult_keeps State.setStatus_msg State.setRes_msg State.setCw_msg State.setMat_msg i s
@[simp] theorem commandResult_pending : (commandResult i s).pending = s.pending :=
  commandResult_keeps State.setStatus_pending State.setRes_pending State.setCw_pending State.setMat_pending i s
@[simp] theorem commandResult_observed : (commandResult i s).observed = s.observed :=
  commandResult_keeps State.setStatus_observed State.setRes_observed State.setCw_observed State.setMat_observed i s

/-- Only the three result commands write RES (10_state.md R28). -/
theorem commandResult_res (h : ¬ (i = .gfMul ∨ i = .gfPow ∨ i = .maskQ)) : (commandResult i s).res = s.res := by
  cases i with
  | gfMul | gfPow | maskQ => simp at h
  | nop | clrerr | illegal => rfl
  | eccRem => exact appendEcc_res s
  | encode => exact checkLength_keeps formatMessage_res State.setStatus_res s
  | place => exact checkLength_keeps placeSymbol_res State.setStatus_res s
  | run =>
    exact checkLength_keeps (f := fun s => placeSymbol (appendEcc (formatMessage s))) (by simp) State.setStatus_res s

/-- Only ENCODE, ECC_REM and RUN write CW (10_state.md R30). -/
theorem commandResult_cw (h : ¬ (i = .encode ∨ i = .eccRem ∨ i = .run)) : (commandResult i s).cw = s.cw := by
  cases i with
  | encode | eccRem | run => simp at h
  | nop | gfMul | gfPow | maskQ | clrerr | illegal => rfl
  | place => exact checkLength_keeps placeSymbol_cw State.setStatus_cw s

end

/-! ### The queue (20_memory.md R62) -/

/-- Every host event has a next state. -/
theorem exists_serve_eq_next (e : HostEvent) (s : State) : ∃ t, serve e s = .next t := by
  cases e with
  | wr a v =>
    rw [serve, memWrite]
    split
    · exact ⟨_, exec_eq _ s⟩
    · exact ⟨_, rfl⟩
  | rd a => exact ⟨_, rfl⟩
  | reset => exact ⟨_, rfl⟩

theorem storeLocation_pending (s : State) (l : Location) (v : Byte) : (storeLocation s l v).pending = s.pending := by
  cases l <;> rfl

/-- No host event puts another into the queue. -/
theorem serve_pending {e : HostEvent} {s t : State} (h : serve e s = .next t) : t.pending = s.pending := by
  obtain ⟨v, -, rfl⟩ | ⟨a, v, -, -, rfl⟩ | ⟨a, -, rfl⟩ | ⟨-, rfl⟩ := serve_cases h
  · exact commandResult_pending _ s
  · exact storeLocation_pending s _ v
  · rfl
  · rfl

theorem step_of_pending_eq_nil {s : State} (h : s.pending = []) : step s = .next s := by
  rw [step, serveNext, h]

theorem step_of_pending_eq_cons {s : State} {e : HostEvent} {rest : List HostEvent} (h : s.pending = e :: rest) :
    step s = serve e (s.setPending rest) := by
  rw [step, serveNext, h]

@[simp] theorem decode_cons (c : Byte) (rest : List Byte) : decode (c :: rest) = .ok (decodeCommand c, rest) := rfl

end Sys2Proof.Machine

namespace Sys2Proof.Proofs

open Sys2Proof.Machine Sys2Proof.Safety

/-- Settles O57: a step keeps MAT, clears it, or leaves a whole symbol there. -/
theorem stepKeepsMatWellFormed : Obligations.StepKeepsMatWellFormed := by
  intro s t hs h
  obtain ⟨-, rfl⟩ | ⟨e, rest, -, hserve⟩ := step_cases h
  · exact hs
  · exact serve_keeps_matWellFormed (s := s.setPending rest) hs hserve

/-- Settles O58: reset blanks MAT. -/
theorem resetMatWellFormed : Obligations.ResetMatWellFormed := .inl rfl

/-- Settles O56: a command writes STATUS, RES, CW and MAT at most. -/
theorem commandsKeepTheirOperands : Obligations.CommandsKeepTheirOperands := fun i s =>
  ⟨_, exec_eq i s, commandResult_msg i s, commandResult_msglen i s, commandResult_opa i s, commandResult_opb i s,
    commandResult_ctrl i s, not_imp_comm.mp (commandResult_res i s), not_imp_comm.mp (commandResult_cw i s)⟩

/-- Settles O3: the byte's command is the one `decode` reads from it. -/
theorem stepRunsDecodedCommand : Obligations.StepRunsDecodedCommand := by
  intro s v rest i hpending hdecode _
  have hi : decodeCommand v = i := by simpa using hdecode
  rw [step_of_pending_eq_cons hpending, serve_wr_cmd, hi]
  rfl

/-- Settles O4: every event has a next state, and none touches the queue. -/
theorem stepServesEventsInOrder : Obligations.StepServesEventsInOrder := by
  refine ⟨fun s e rest hpending => ?_, fun s => step_of_pending_eq_nil⟩
  obtain ⟨t, ht⟩ := exists_serve_eq_next e (s.setPending rest)
  exact ⟨t, (step_of_pending_eq_cons hpending).trans ht, ht, serve_pending ht⟩

/-- Settles O53: with no event pending the state stays, and every event has a next state. -/
theorem everyStepCompletes : Obligations.EveryStepCompletes := by
  intro s
  cases hpending : s.pending with
  | nil => exact ⟨s, step_of_pending_eq_nil hpending⟩
  | cons e rest =>
    rw [step_of_pending_eq_cons hpending]
    exact exists_serve_eq_next e _

/-- Settles O52: each of the four things a host event can do to STATUS sets at most one bit. -/
theorem atMostOneErrorPerCommand : Obligations.AtMostOneErrorPerCommand := by
  rintro s t v h ⟨⟨hlen, hlen'⟩, hcmd, hcmd'⟩
  obtain hkeep | ⟨-, -, hrec⟩ | ⟨-, hrec⟩ | ⟨-, hclear⟩ := serve_status_cases h
  · simp [hkeep, hlen] at hlen'
  · simp [hrec, hcmd] at hcmd'
  · simp [hrec, hlen] at hlen'
  · simp [hclear, Status.clear] at hlen'

end Sys2Proof.Proofs
end

section
/-! SUPPORT. 30_encoding.md: the decoder and the encoder are inverse to each other, the word the host supplies runs next, and
the pseudo-statements of R87. -/

namespace Sys2Proof.Machine

open Sys2Proof.Laws

/-! ### Decoding an encoding (R82, R85) -/

/-- The round trip of `Laws.RoundTrip`, for every command. -/
theorem decodeCommand_encodeCommand {i : Instr} (h : i.wf = true) : decodeCommand (encodeCommand i) = i := by
  cases i with
  | nop => exact RoundTrip.nop h
  | gfMul => exact RoundTrip.gfMul h
  | gfPow => exact RoundTrip.gfPow h
  | maskQ => exact RoundTrip.maskQ h
  | encode => exact RoundTrip.encode h
  | eccRem => exact RoundTrip.eccRem h
  | place => exact RoundTrip.place h
  | run => exact RoundTrip.run h
  | clrerr => exact RoundTrip.clrerr h
  | illegal code => exact RoundTrip.illegal code h

/-- The decoder answers rows of the map only. -/
theorem wf_decodeCommand (c : Byte) : (decodeCommand c).wf = true := by
  cases hi : decodeCommand c with
  | illegal code =>
    obtain rfl : c = code := eq_encodeCommand_of_decodeCommand_eq hi
    exact decide_eq_true (le_toNat_of_decodeCommand_eq_illegal hi)
  | _ => rfl

/-! ### The supplied command word (log 14) -/

theorem tableBytes_8 {w : Nat} (hw : w < 256) : tableBytes 8 w = [BitVec.ofNat 8 w] := by
  rw [tableBytes, if_pos (by decide), Nat.mod_eq_of_lt (by omega)]

theorem commandEvents_8 {w : Nat} (hw : w < 256) : commandEvents 8 w = [.wr 0x002#10 (BitVec.ofNat 8 w)] := by
  rw [commandEvents, tableBytes_8 hw]
  rfl

/-! ### Pseudo-statements (R87, R88) -/

/-- One write statement for each byte of a list makes the bus writes of the list. -/
theorem assemble_map_wr (address : Nat → AddrExpr) (base : Nat) (haddress : ∀ i, (address i).toNat = base + i)
    (bytes : List Byte) :
    assemble (bytes.zipIdx.map fun p => .wr (address p.2) p.1) = writeRun base bytes := by
  rw [assemble, List.flatMap_map, writeRun, List.map_eq_flatMap]
  simp only [Stmt.accesses, AddrExpr.addr, haddress]

end Sys2Proof.Machine

namespace Sys2Proof.Proofs

open Sys2Proof.Machine

/-- Settles O2: both round trips, the second of which makes the encoder injective. -/
theorem decodeEncodeAgree : Obligations.DecodeEncodeAgree := by
  refine ⟨fun i hi rest => ?_, fun c => ⟨wf_decodeCommand c, encodeCommand_decodeCommand c⟩, fun i j hi hj h => ?_⟩
  · rw [encode, List.singleton_append, decode_cons, decodeCommand_encodeCommand hi]
  · rw [← decodeCommand_encodeCommand hi, h, decodeCommand_encodeCommand hj]

/-- Settles O5: the word is one CMD write, put in front of the queue. -/
theorem fetchWordRunsNext : Obligations.FetchWordRunsNext := by
  intro s w hw
  have hpending : (s.withFetchWord 8 w).pending = .wr 0x002#10 (BitVec.ofNat 8 w) :: s.pending := by
    rw [State.withFetchWord, State.setPending_pending, commandEvents_8 hw, List.singleton_append]
  refine ⟨by rw [decodeTableWord, tableBytes_8 hw, decode_cons], ?_⟩
  rw [step_of_pending_eq_cons hpending, serve_wr_cmd]
  rfl

/-- Settles O6, by the bus accesses of a list of write statements. -/
theorem pseudoStatementsExpand : Obligations.PseudoStatementsExpand := by
  refine ⟨fun i => rfl, fun bytes _ => ?_, fun bytes _ => ?_, fun x y _ _ => rfl⟩
  · rw [assemble, List.flatMap_cons, ← assemble, assemble_map_wr .msg 0x010 (fun _ => rfl)]
    rfl
  · exact (assemble_map_wr .cw 0x020 (fun _ => rfl) bytes).symm

end Sys2Proof.Proofs
end

section
/-! SUPPORT. The register window seen from the host: which address names a location, what a write and a command leave
readable as before, and the statements about reads, writes, reset and the frames of the commands. -/

namespace Sys2Proof.Machine

open Sys2Proof.Safety

/-! ### The address of a location (20_memory.md R51, R52) -/

/-- R51 read from the location to its address; a reserved location stands for no address of its own. -/
def Location.address : Location → Nat
  | .ctrl => 0x000
  | .status => 0x001
  | .cmd => 0x002
  | .msglen => 0x003
  | .opa => 0x004
  | .opb => 0x005
  | .res => 0x006
  | .msg i => 0x010 + i
  | .cw i => 0x020 + i
  | .gen j => 0x040 + j
  | .fmtHi => 0x04C
  | .fmtLo => 0x04D
  | .mat y x => 0x100 + 21 * y + x
  | .reserved => 0

/-- Every location that is not reserved has one address. -/
theorem toNat_eq_address_of_locate {a : Addr} {l : Location} (h : locate a = l) (hl : l ≠ .reserved) :
    a.toNat = l.address := by
  subst h
  revert hl
  fun_cases locate a
  case case14 => exact absurd rfl
  all_goals simp only [Location.address]; omega

theorem locate_injective_of_ne_reserved {a b : Addr} (h : locate b = locate a) (hl : locate a ≠ .reserved) : b = a :=
  BitVec.eq_of_toNat_eq
    ((toNat_eq_address_of_locate h hl).trans (toNat_eq_address_of_locate rfl hl).symm)

/-! ### Reading after a host write (20_memory.md R55, R56) -/

/-- The locations that a host write fills with its whole byte: MSGLEN, OPA, OPB, MSG and CW. -/
def Location.storesByte : Location → Bool
  | .msglen | .opa | .opb | .msg _ | .cw _ => true
  | _ => false

theorem readLocation_storeLocation_same (s : State) {l : Location} (v : Byte) (h : l.storesByte = true) :
    readLocation (storeLocation s l v) l = v := by
  cases l with
  | msglen | opa | opb => rfl
  | msg i | cw i => simp [storeLocation, readLocation]
  | _ => cases h

/-- A store is read at no address but its own. -/
theorem memRead_storeLocation_of_ne (s : State) {a b : Addr} (v : Byte) (h : b ≠ a) :
    memRead (storeLocation s (locate a) v) b = memRead s b := by
  by_cases hl : locate a = .reserved
  · rw [hl, storeLocation]
  · exact readLocation_storeLocation_of_ne s v fun hloc => h (locate_injective_of_ne_reserved hloc hl)

/-- The addresses of MSGLEN, OPA, OPB, MSG and CW. -/
theorem storesByte_locate {a : Addr}
    (h : (0x003 ≤ a.toNat ∧ a.toNat ≤ 0x005) ∨ (0x010 ≤ a.toNat ∧ a.toNat ≤ 0x01D)
      ∨ (0x020 ≤ a.toNat ∧ a.toNat ≤ 0x039)) : (locate a).storesByte = true := by
  fun_cases locate a
  case case4 | case5 | case6 | case8 | case9 => rfl
  all_goals omega

/-- No location's byte depends on the host's queue. -/
@[simp] theorem readLocation_setPending (s : State) (events : List HostEvent) (l : Location) :
    readLocation (s.setPending events) l = readLocation s l := by
  cases l <;> rfl

theorem memRead_hardReset (s : State) (a : Addr) : memRead (hardReset s) a = memRead State.reset a := by
  rw [memRead, hardReset, readLocation_setObserved, readLocation_setPending, memRead]

/-! ### Reading after a command's writes (20_memory.md R51) -/

section
variable (s : State) {a : Addr}

theorem memRead_setStatus (v : Status) (ha : a ≠ 0x001#10) : memRead (s.setStatus v) a = memRead s a := by
  unfold memRead
  cases hl : locate a with
  | status => exact absurd (BitVec.eq_of_toNat_eq (toNat_eq_address_of_locate hl nofun)) ha
  | _ => rfl

theorem memRead_setRes (v : Byte) (ha : a ≠ 0x006#10) : memRead (s.setRes v) a = memRead s a := by
  unfold memRead
  cases hl : locate a with
  | res => exact absurd (BitVec.eq_of_toNat_eq (toNat_eq_address_of_locate hl nofun)) ha
  | _ => rfl

/-- New contents of CW are read as before where they agree with the old. -/
theorem memRead_setCw (v : Vector Byte 26)
    (ha : ∀ (i : Nat) (hi : i < 26), a.toNat = 0x020 + i → v[i] = s.cw[i]) : memRead (s.setCw v) a = memRead s a := by
  unfold memRead
  cases hl : locate a with
  | cw i => exact ha i i.isLt (toNat_eq_address_of_locate hl nofun)
  | _ => rfl

theorem memRead_setMat (m : Matrix) (ha : ¬ (0x100 ≤ a.toNat ∧ a.toNat ≤ 0x2B8)) :
    memRead (s.setMat m) a = memRead s a := by
  unfold memRead
  cases hl : locate a with
  | mat y x =>
    have hat : a.toNat = 0x100 + 21 * y + x := toNat_eq_address_of_locate hl nofun
    omega
  | _ => rfl

theorem memRead_formatMessage (ha : ¬ (0x020 ≤ a.toNat ∧ a.toNat ≤ 0x02F)) :
    memRead (formatMessage s) a = memRead s a := by
  rw [formatMessage_eq_setCw]
  refine memRead_setCw s _ fun i hi hat => ?_
  rw [getElem_formatMessage_cw, dif_neg (by omega)]

theorem memRead_appendEcc (ha : ¬ (0x030 ≤ a.toNat ∧ a.toNat ≤ 0x039)) : memRead (appendEcc s) a = memRead s a := by
  rw [appendEcc_eq_setCw]
  exact memRead_setCw s _ fun i hi hat => getElem_appendEcc_cw_of_lt s (by omega)

theorem memRead_placeSymbol (ha : ¬ (0x100 ≤ a.toNat ∧ a.toNat ≤ 0x2B8)) :
    memRead (placeSymbol s) a = memRead s a := by
  rw [placeSymbol_eq_setMat]
  exact memRead_setMat s _ ha

end

/-! ### What is left to the frames of the pipeline commands (10_state.md R23, R35) -/

/-- Only PLACE and RUN write MAT. -/
theorem commandResult_mat {i : Instr} (s : State) (hi : ¬ (i = .place ∨ i = .run)) :
    (commandResult i s).mat = s.mat :=
  (commandResult_mat_cases i s).resolve_right fun h => hi h.2

/-- The checked commands record LEN_ERR at most, so CMD_ERR stays. -/
theorem commandResult_cmdErr {i : Instr} (s : State) (hi : i = .encode ∨ i = .place ∨ i = .run) :
    (commandResult i s).status.cmdErr = s.status.cmdErr := by
  obtain hkeep | ⟨-, -, hrec⟩ | ⟨⟨code, rfl⟩, -⟩ | ⟨rfl, -⟩ := commandResult_status_cases i s
  · rw [hkeep]
  · simp [hrec]
  · simp at hi
  · simp at hi

/-- At an illegal length the checked commands leave every address but STATUS's. -/
theorem memRead_commandResult_of_not_legalLength {i : Instr} {s : State} (hi : i = .encode ∨ i = .place ∨ i = .run)
    (hs : ¬ LegalLength s) {a : Addr} (ha : a ≠ 0x001#10) : memRead (commandResult i s) a = memRead s a := by
  rw [commandResult_of_not_legalLength hi hs]
  exact memRead_setStatus s _ ha

end Sys2Proof.Machine

namespace Sys2Proof.Proofs

open Sys2Proof.Machine Sys2Proof.Safety

/-- Settles O12: a write is the store of the location its address names, and no other address names that location. -/
theorem readAfterWrite : Obligations.ReadAfterWrite := by
  intro s t a v ha h
  obtain rfl : storeLocation s (locate a) v = t :=
    Host.Outcome.next.inj ((serve_wr_of_locate s v rfl (mt (locate_eq_cmd_iff a).mp ha)).symm.trans h)
  refine ⟨fun hstores => ?_, fun hctrl => ?_, fun b hb => memRead_storeLocation_of_ne s v hb⟩
  · exact readLocation_storeLocation_same s v (storesByte_locate (by bv_omega))
  · subst hctrl
    exact Ctrl.toByte_ofByte v

/-- Settles O13: the host's record of its reads is no location. -/
theorem hostReadChangesNoState : Obligations.HostReadChangesNoState := fun s a =>
  ⟨_, rfl, rfl, memRead_observe s (memRead s a)⟩

/-- Settles O15: the two lists that a reset event keeps are no location. -/
theorem resetInputRestoresValues : Obligations.ResetInputRestoresValues := fun s =>
  ⟨_, rfl, memRead_hardReset s⟩

/-- Settles O25: each of the three commands is one replacement of RES. -/
theorem frameOfResultCommands : Obligations.FrameOfResultCommands := by
  intro i s t hi h
  obtain ⟨v, rfl⟩ : ∃ v, t = s.setRes v := by
    obtain rfl | rfl | rfl := hi <;> exact ⟨_, (Host.Outcome.next.inj h).symm⟩
  exact ⟨rfl, rfl, rfl, rfl, rfl, rfl, rfl, rfl, rfl, rfl, fun a => memRead_setRes s v⟩

/-- Settles O48: each of these commands is at most one replacement of STATUS. -/
theorem frameOfStatusCommands : Obligations.FrameOfStatusCommands := by
  intro i s t hi h
  obtain ⟨v, rfl, hnop, hillegal⟩ : ∃ v, t = s.setStatus v ∧ (i = .nop → v = s.status)
      ∧ ((∃ c, i = .illegal c) → v.lenErr = s.status.lenErr) := by
    obtain rfl | rfl | ⟨c, rfl⟩ := hi
    · exact ⟨s.status, (Host.Outcome.next.inj h).symm, by simp⟩
    · exact ⟨Status.clear, (Host.Outcome.next.inj h).symm, by simp⟩
    · exact ⟨s.status.record .cmdErr, (Host.Outcome.next.inj h).symm, by simp⟩
  exact ⟨rfl, rfl, rfl, rfl, rfl, rfl, rfl, rfl, rfl, rfl, hnop, hillegal, fun a => memRead_setStatus s v⟩

/-- Settles O33: ENCODE past its check replaces CW[0..15], and ECC_REM replaces CW[16..25]. -/
theorem frameOfCodewordCommands : Obligations.FrameOfCodewordCommands := by
  refine ⟨fun s t h => ?encode, fun s t h => ?eccRem⟩
  case encode =>
    obtain rfl : commandResult .encode s = t := Host.Outcome.next.inj ((exec_eq .encode s).symm.trans h)
    refine ⟨commandResult_ctrl _ s, commandResult_msglen _ s, commandResult_opa _ s, commandResult_opb _ s,
      commandResult_res _ s (by simp), commandResult_msg _ s, commandResult_mat s (by simp), commandResult_pending _ s,
      commandResult_observed _ s, commandResult_cmdErr s (by simp), fun hs => ?_,
      fun hs a => memRead_commandResult_of_not_legalLength (by simp) hs⟩
    rw [commandResult, checkLength_of_legalLength _ hs]
    exact ⟨formatMessage_status s, fun a => memRead_formatMessage s⟩
  case eccRem =>
    obtain rfl : appendEcc s = t := Host.Outcome.next.inj ((exec_eq .eccRem s).symm.trans h)
    exact ⟨appendEcc_ctrl s, appendEcc_status s, appendEcc_msglen s, appendEcc_opa s, appendEcc_opb s, appendEcc_res s,
      appendEcc_msg s, appendEcc_mat s, appendEcc_pending s, appendEcc_observed s, fun a => memRead_appendEcc s⟩

/-- Settles O42: PLACE past its check replaces MAT, and RUN first replaces CW. -/
theorem frameOfMatrixCommands : Obligations.FrameOfMatrixCommands := by
  intro i s t hi h
  have hchecked : i = .encode ∨ i = .place ∨ i = .run := .inr hi
  have hnotRes : ¬ (i = .gfMul ∨ i = .gfPow ∨ i = .maskQ) := by obtain rfl | rfl := hi <;> simp
  obtain rfl : commandResult i s = t := Host.Outcome.next.inj ((exec_eq i s).symm.trans h)
  refine ⟨commandResult_ctrl _ s, commandResult_msglen _ s, commandResult_opa _ s, commandResult_opb _ s,
    commandResult_res _ s hnotRes, commandResult_msg _ s, commandResult_pending _ s, commandResult_observed _ s,
    commandResult_cmdErr s hchecked, fun hplace => commandResult_cw _ s (by simp [hplace]), fun hs => ?_,
    fun hs a => memRead_commandResult_of_not_legalLength hchecked hs⟩
  obtain rfl | rfl := hi
  · rw [commandResult, checkLength_of_legalLength _ hs]
    exact ⟨placeSymbol_status s, fun a ha _ => memRead_placeSymbol s ha⟩
  · rw [commandResult, checkLength_of_legalLength _ hs]
    refine ⟨by simp, fun a ha hnotCw => ?_⟩
    have hcw : ¬ (0x020 ≤ a.toNat ∧ a.toNat ≤ 0x039) := fun hat => hnotCw ⟨rfl, hat⟩
    rw [memRead_placeSymbol _ ha, memRead_appendEcc _ (by omega), memRead_formatMessage _ (by omega)]

end Sys2Proof.Proofs
end

section
/-! SUPPORT. 46_control.md and 70_reset_and_hazards.md: RUN is its three stages one after another and leaves a fresh symbol,
and every command is idempotent. -/

namespace Sys2Proof.Machine

open Sys2Proof.Safety

/-! ### The stages of RUN (46_control.md R221) -/

/-- Whatever follows in the pipeline, the ECC Block is fresh once it is appended. -/
theorem eccFresh_appendEcc (s : State) : EccFresh (appendEcc s) := by
  rw [EccFresh, eccBlock_appendEcc_cw, appendEcc_cw, dataBlock_withEcc]

theorem getElem_runCw (s : State) (hs : LegalLength s) {i : Nat} (h : i < 16) :
    (appendEcc (formatMessage s)).cw[i] = blockByte s.msglen s.msg i := by
  rw [getElem_appendEcc_cw_of_lt _ h, getElem_formatMessage_cw, dif_pos h, getElem_encodeBlock s hs h]

/-- The two replacements as one record. With variables for the values the elaborator does not unfold them. -/
theorem State.setMat_setCw_eq (s : State) (v : Vector Byte 26) (m : Matrix) :
    (s.setCw v).setMat m = { s with cw := v, mat := m } := rfl

/-- The three stages change CW and MAT alone. -/
theorem runStages_eq_setCw_setMat (s : State) :
    placeSymbol (appendEcc (formatMessage s))
      = (s.setCw (appendEcc (formatMessage s)).cw).setMat (placeSymbol (appendEcc (formatMessage s))).mat := by
  simp only [placeSymbol, appendEcc, formatMessage, State.setCw_setCw, State.setMat_mat, State.setCw_cw]

theorem exec_eccRem (s : State) : exec .eccRem s = .next (appendEcc s) := exec_eq .eccRem s

theorem exec_run_of_not_legalLength {s : State} (hs : ¬ LegalLength s) :
    exec .run s = .next (s.setStatus (s.status.record .lenErr)) := by
  rw [exec_eq, commandResult_of_not_legalLength (by simp) hs]

/-! ### Idempotence (20_memory.md R59) -/

@[simp] theorem message_setCw (s : State) (v : Vector Byte 26) : message (s.setCw v) = message s := by
  simp [message]

theorem formatMessage_idem (s : State) : formatMessage (formatMessage s) = formatMessage s := by
  simp [formatMessage]

theorem appendEcc_idem (s : State) : appendEcc (appendEcc s) = appendEcc s :=
  appendEcc_setCw_withEcc s _

theorem placeSymbol_idem (s : State) : placeSymbol (placeSymbol s) = placeSymbol s :=
  placeSymbol_setMat s _

/-- Formatting the message writes CW[0..15] alone, so an ECC Block appended before is only kept. -/
theorem formatMessage_appendEcc (s : State) :
    ∃ e, formatMessage (appendEcc s) = (formatMessage s).setCw (withEcc (formatMessage s).cw e) := by
  refine ⟨remainder (dataBlock s.cw) Rom.gen, ?_⟩
  simp [formatMessage, appendEcc, withData_withEcc]

theorem formatMessage_placeSymbol (s : State) :
    formatMessage (placeSymbol s) = (formatMessage s).setMat (placeSymbol s).mat := by
  rw [placeSymbol, State.setMat_mat, formatMessage_setMat]

/-- The second run formats the same message into the same block. -/
theorem runStages_idem (s : State) :
    placeSymbol (appendEcc (formatMessage (placeSymbol (appendEcc (formatMessage s)))))
      = placeSymbol (appendEcc (formatMessage s)) := by
  obtain ⟨e, he⟩ := formatMessage_appendEcc (formatMessage s)
  rw [formatMessage_placeSymbol, appendEcc_setMat, placeSymbol_setMat, he, formatMessage_idem, appendEcc_setCw_withEcc]

/-- The length check answers the same twice, and its error is recorded once. -/
theorem checkLength_idem {f : State → State} (hmsglen : ∀ s, (f s).msglen = s.msglen) (hf : ∀ s, f (f s) = f s)
    (s : State) : checkLength f (checkLength f s) = checkLength f s := by
  cases hlen : lengthLegal s.msglen with
  | true => simp only [checkLength, hlen, if_true, hmsglen, hf]
  | false => simp [checkLength, hlen, Status.record]

theorem commandResult_idem (i : Instr) (s : State) : commandResult i (commandResult i s) = commandResult i s := by
  cases i with
  | nop | gfMul | gfPow | maskQ | clrerr | illegal => rfl
  | eccRem => exact appendEcc_idem s
  | encode => exact checkLength_idem formatMessage_msglen formatMessage_idem s
  | place => exact checkLength_idem placeSymbol_msglen placeSymbol_idem s
  | run =>
    exact checkLength_idem (f := fun s => placeSymbol (appendEcc (formatMessage s))) (by simp) runStages_idem s

/-! ### The example of RUN (R221) -/

/-- The first nine bytes of MSG in the example: PagedOut! -/
def exampleMessage : List Byte := [0x50#8, 0x61#8, 0x67#8, 0x65#8, 0x64#8, 0x4F#8, 0x75#8, 0x74#8, 0x21#8]

theorem encodeBlock_exampleMessage : encodeBlock 9#8 exampleMessage = dataBlock exampleCodeword := by decide +kernel

theorem eccBlock_exampleCodeword : remainder (dataBlock exampleCodeword) Rom.gen = eccBlock exampleCodeword :=
  remainder_example

/-- The example's message leads to the example's Full Codeword, whatever CW held. -/
theorem runCw_exampleMessage {s : State} (hL : s.msglen = 9#8) (hm : message s = exampleMessage) :
    (appendEcc (formatMessage s)).cw = exampleCodeword := by
  have hdata : dataBlock (formatMessage s).cw = dataBlock exampleCodeword := by
    rw [formatMessage_cw, dataBlock_withData, hL, hm, encodeBlock_exampleMessage]
  refine cw_ext ?_ ?_
  · rw [appendEcc_cw, dataBlock_withEcc, hdata]
  · rw [eccBlock_appendEcc_cw, hdata, eccBlock_exampleCodeword]

/-- The rows of the example's symbol, x = 0 the most significant of 21 bits. -/
theorem symbolMatrix_exampleCodeword_rows :
    (symbolMatrix exampleCtrl 9 exampleCodeword).toList.map (fun row => row.toList.foldl (fun n b => 2 * n + b.toNat) 0)
      = [0x1FC07F, 0x105741, 0x17495D, 0x174C5D, 0x17555D, 0x104141, 0x1FD57F, 0x000700, 0x154E00, 0x1C8C1B, 0x08C97F]
        ++ [0x1B1C82, 0x14CD31, 0x001690, 0x1FC6FB, 0x104F10, 0x174A20, 0x174462, 0x174D3D, 0x104860, 0x1FCD72] := by
  decide +kernel

end Sys2Proof.Machine

namespace Sys2Proof.Proofs

open Sys2Proof.Machine Sys2Proof.Safety

/-- Settles O44: RUN is the composition of the stages, which keep MSGLEN, so one length check stands for both. -/
theorem runIsPipeline : Obligations.RunIsPipeline := by
  refine ⟨fun s hs => ?legal, fun s hs => ⟨exec_run_of_not_legalLength hs, ?illegal⟩, fun s hL hc hm => ?pagedOut⟩
  case legal =>
    have hplace : LegalLength (appendEcc (formatMessage s)) := by
      rwa [LegalLength, appendEcc_msglen, formatMessage_msglen]
    refine ⟨_, appendEcc (formatMessage s), placeSymbol (appendEcc (formatMessage s)), exec_encode_of_legalLength hs,
      exec_eccRem _, exec_place_of_legalLength hplace, exec_run_of_legalLength hs, ?_, fun i h => ?_, ?_, ?_⟩
    · rw [placeSymbol_cw]
      exact (runStages_eq_setCw_setMat s).trans (State.setMat_setCw_eq s _ _)
    · simp only [placeSymbol_cw]
      exact getElem_runCw s hs h
    · rw [placeSymbol_cw]
      exact eccFresh_appendEcc _
    · rw [placeSymbol_cw, placeSymbol_mat, appendEcc_ctrl, formatMessage_ctrl, appendEcc_msglen, formatMessage_msglen]
      exact isSymbol_symbolMatrix _ _ _
  case illegal =>
    have hplace : ¬ LegalLength (appendEcc (s.setStatus (s.status.record .lenErr))) := by
      rwa [LegalLength, appendEcc_msglen, State.setStatus_msglen]
    refine ⟨_, _, _, (exec_eq .encode s).trans (congrArg _ (commandResult_of_not_legalLength (by simp) hs)),
      exec_eccRem _, (exec_eq .place _).trans (congrArg _ (commandResult_of_not_legalLength (by simp) hplace)), ?_⟩
    refine (exec_eccRem s).trans (congrArg _ ?_)
    rw [appendEcc_setStatus, appendEcc_eq_setCw]
    generalize (appendEcc s).cw = v
    rfl
  case pagedOut =>
    have hmessage : message s = exampleMessage := by
      rw [message, hL]
      exact hm
    have hcw : (appendEcc (formatMessage s)).cw = exampleCodeword := runCw_exampleMessage hL hmessage
    refine ⟨_, exec_run_of_legalLength (by rw [LegalLength, hL]; decide), ?_, ?_⟩
    · rw [placeSymbol_cw, hcw]
      rfl
    · rw [placeSymbol_mat, hcw, appendEcc_ctrl, formatMessage_ctrl, appendEcc_msglen, formatMessage_msglen, hL, hc]
      exact symbolMatrix_exampleCodeword_rows

/-- Settles O45: the last two stages of RUN write a fresh ECC Block and a current symbol, and no store touches MAT. -/
theorem runLeavesFreshSymbol : Obligations.RunLeavesFreshSymbol := by
  refine ⟨fun s hs => ⟨_, exec_run_of_legalLength hs, ?_, matCurrent_placeSymbol _⟩, fun s t a v ha h => ?_⟩
  · rw [EccFresh, placeSymbol_cw]
    exact eccFresh_appendEcc _
  · obtain hkeep | ⟨-, he | he⟩ | he := serve_mat_cases h
    · exact hkeep
    all_goals simp [ha] at he

/-- Settles O54: each stage overwrites what it wrote before with the same values. -/
theorem everyCommandIdempotent : Obligations.EveryCommandIdempotent := fun i s =>
  ⟨_, exec_eq i s, (exec_eq i _).trans (congrArg _ (commandResult_idem i s))⟩

end Sys2Proof.Proofs
end

section
/-! SUPPORT. 40_gf256.md: the loop of R100 is carryless multiplication and then long division by 0x11D, the powers of 2 are
the doublings of 1, and the statements of R105 and R106. -/

namespace Sys2Proof.Machine

open Sys2Proof.Safety

/-! ### Long division by 0x11D -/

/-- One step of long division: clear bit 8 + d with 0x11D shifted under it. -/
def reduceStep (n d : Nat) : Nat := if n.testBit (8 + d) then n ^^^ (285 <<< d) else n

/-- Long division from bit 7 + k down to bit 8. -/
def reduceFrom (k n : Nat) : Nat := (List.range k).reverse.foldl reduceStep n

theorem reduceProduct_eq_reduceFrom (n : Nat) : reduceProduct n = reduceFrom 7 n := rfl

theorem reduceFrom_succ (k n : Nat) : reduceFrom (k + 1) n = reduceFrom k (reduceStep n k) := by
  rw [reduceFrom, List.range_succ, List.reverse_append, List.reverse_singleton, List.singleton_append, List.foldl_cons,
    reduceFrom]

theorem reduceStep_xor (m n d : Nat) : reduceStep (m ^^^ n) d = reduceStep m d ^^^ reduceStep n d := by
  unfold reduceStep
  rw [Nat.testBit_xor]
  cases m.testBit (8 + d) <;> cases n.testBit (8 + d)
  · simp
  · simp [Nat.xor_assoc]
  · simp [Nat.xor_right_comm]
  · simp [Nat.xor_comm, Nat.xor_left_comm]

/-- Long division is linear over `^`. -/
theorem reduceFrom_xor (k m n : Nat) : reduceFrom k (m ^^^ n) = reduceFrom k m ^^^ reduceFrom k n := by
  induction k generalizing m n with
  | zero => rfl
  | succ k ih => rw [reduceFrom_succ, reduceFrom_succ, reduceFrom_succ, reduceStep_xor, ih]

/-- A step at a byte's top bit doubles the byte in the field. -/
theorem reduceStep_shiftLeft_succ (x : Byte) (d : Nat) :
    reduceStep (x.toNat <<< (d + 1)) d = (gfDoubleByte x).toNat <<< d := by
  have double : (gfDoubleByte x).toNat = if x.toNat.testBit 7 then (x.toNat <<< 1) ^^^ 285 else x.toNat <<< 1 := by
    decide +revert
  have htop : (x.toNat <<< (d + 1)).testBit (8 + d) = x.toNat.testBit 7 := by
    rw [Nat.testBit_shiftLeft, decide_eq_true (by omega), Bool.true_and]
    congr 1
    omega
  rw [reduceStep, htop, double, Nat.add_comm d 1, Nat.shiftLeft_add]
  split
  · rw [Nat.shiftLeft_xor_distrib]
  · rfl

/-- A step above a byte's top bit changes nothing. -/
theorem reduceStep_shiftLeft_of_le (x : Byte) {d i : Nat} (h : i ≤ d) :
    reduceStep (x.toNat <<< i) d = x.toNat <<< i := by
  have htop : (x.toNat <<< i).testBit (8 + d) = false := by
    rw [Nat.testBit_shiftLeft, BitVec.testBit_toNat, BitVec.getLsbD_of_ge _ _ (by omega), Bool.and_false]
  rw [reduceStep, htop, if_neg Bool.false_ne_true]

/-- Dividing a byte shifted by i doubles it i times in the field. -/
theorem reduceFrom_shiftLeft (x : Byte) {i k : Nat} (h : i ≤ k) :
    reduceFrom k (x.toNat <<< i) = (gfDoubleByte^[i] x).toNat := by
  induction k, h using Nat.le_induction with
  | base =>
    induction i generalizing x with
    | zero => rfl
    | succ i ih => rw [reduceFrom_succ, reduceStep_shiftLeft_succ, ih, Function.iterate_succ_apply]
  | succ k hk ih => rw [reduceFrom_succ, reduceStep_shiftLeft_of_le x hk, ih]

/-- The carryless product of x by the lowest n bits of y. -/
def carrylessSum (x y : Byte) (n : Nat) : Nat :=
  (List.range n).foldl (fun acc i => if y.getLsbD i then acc ^^^ (x.toNat <<< i) else acc) 0

theorem carrylessProduct_eq_carrylessSum (x y : Byte) : carrylessProduct x y = carrylessSum x y 8 := rfl

theorem carrylessSum_succ (x y : Byte) (n : Nat) :
    carrylessSum x y (n + 1)
      = if y.getLsbD n then carrylessSum x y n ^^^ (x.toNat <<< n) else carrylessSum x y n := by
  rw [carrylessSum, List.range_succ, List.foldl_append, List.foldl_cons, List.foldl_nil, carrylessSum]

/-- Divided after n bits of y, the carryless product is the sum of R100 after n turns. -/
theorem reduceFrom_carrylessSum (x y : Byte) {n : Nat} (hn : n ≤ 8) :
    reduceFrom 7 (carrylessSum x y n) = (gfMulSum x y n).toNat := by
  induction n with
  | zero =>
    have hzero : reduceFrom 7 0 = 0 := by decide
    exact hzero
  | succ n ih =>
    rw [carrylessSum_succ, gfMulSum, BitVec.toNat_xor, ← ih (by omega)]
    split
    · rw [reduceFrom_xor, reduceFrom_shiftLeft x (by omega)]
    · exact (Nat.xor_zero _).symm

/-! ### The powers of 2 (R106) -/

/-- 2 is the double of 1, so its powers are the doublings of 1. -/
theorem gfPow_two {n : Nat} (hn : n < 256) : gfPow 2#8 (BitVec.ofNat 8 n) = gfDoubleByte^[n] 1#8 := by
  have hone : gfPowLoop 1#8 n = 1#8 := by
    have h := one_gfPow (BitVec.ofNat 8 n)
    rwa [gfPow, BitVec.toNat_ofNat, Nat.mod_eq_of_lt (by omega)] at h
  have htwo : 2#8 = gfDoubleByte 1#8 := rfl
  rw [gfPow, BitVec.toNat_ofNat, Nat.mod_eq_of_lt (by omega), htwo, gfPowLoop_double, hone]

end Sys2Proof.Machine

namespace Sys2Proof.Proofs

open Sys2Proof.Machine Sys2Proof.Safety

/-- Settles O17: division is linear, and it takes each shifted copy of x to the doubling that R100's loop adds. -/
theorem gfMulIsReducedCarrylessProduct : Obligations.GfMulIsReducedCarrylessProduct := by
  intro x y
  rw [gfMul_eq_gfMulSum, reduceProduct_eq_reduceFrom, carrylessProduct_eq_carrylessSum,
    reduceFrom_carrylessSum x y (by omega)]

/-- Settles O18: `gf_mul` is a sum of doublings, which commute with sums and with each other. -/
theorem gfMulIsRingProduct : Obligations.GfMulIsRingProduct := fun x y z =>
  ⟨gfMul_xor_right x y z, gfMul_assoc x y z⟩

/-- Settles O20: the order of every nonzero element divides 255. -/
theorem gfPow254IsInverse : Obligations.GfPow254IsInverse := fun _ => gfMul_gfPow_254

/-- Settles O21: doubling runs from 1 through the 255 nonzero bytes and back to 1. -/
theorem alphaGeneratesField : Obligations.AlphaGeneratesField := by
  refine ⟨fun m n hm hn h => ?_, fun n hn => ?_, fun x hx => ?_, gfPow_255 (by decide), fun _ => gfPow_255, by decide⟩
  · rw [gfPow_two (by omega), gfPow_two (by omega)] at h
    rw [← minimalPeriod_gfDoubleByte] at hm hn
    exact Function.iterate_injOn_Iio_minimalPeriod hm hn h
  · rw [gfPow_two (by omega)]
    exact iterate_gfDoubleByte_ne_zero (by decide) n
  · obtain ⟨n, hn, rfl⟩ := exists_iterate_gfDoubleByte_one hx
    exact ⟨n, hn, gfPow_two (by omega)⟩

end Sys2Proof.Proofs
end

section
/-! SUPPORT. 42_ecc.md: polynomials over the field by their values, GEN by its roots, a row of the division entry by entry,
and the statements of R141 and R143. -/

namespace Sys2Proof.Machine

open Sys2Proof.Safety

/-! ### Values of polynomials -/

/-- The evaluation of `evalPoly`, from any value on. -/
def evalFrom (x acc : Byte) (p : List Byte) : Byte := p.foldl (fun acc c => gfMul acc x ^^^ c) acc

theorem evalPoly_eq_evalFrom (p : List Byte) (x : Byte) : evalPoly p x = evalFrom x 0#8 p := rfl

@[simp] theorem evalFrom_cons (x acc c : Byte) (p : List Byte) :
    evalFrom x acc (c :: p) = evalFrom x (gfMul acc x ^^^ c) p := rfl

/-- The evaluation of p followed by q goes on through q from the value of p. -/
theorem evalPoly_append (p q : List Byte) (x : Byte) : evalPoly (p ++ q) x = evalFrom x (evalPoly p x) q :=
  List.foldl_append

/-- One coefficient more, at the low end. -/
theorem evalPoly_concat (p : List Byte) (c x : Byte) : evalPoly (p ++ [c]) x = gfMul (evalPoly p x) x ^^^ c :=
  evalPoly_append p [c] x

/-- Coefficients added pairwise add the values, whatever the evaluations start from. -/
theorem evalFrom_zipWith_xor (x : Byte) {p q : List Byte} (h : p.length = q.length) (acc acc' : Byte) :
    evalFrom x (acc ^^^ acc') (List.zipWith (· ^^^ ·) p q) = evalFrom x acc p ^^^ evalFrom x acc' q := by
  induction p generalizing q acc acc' with
  | nil =>
    obtain rfl : q = [] := List.length_eq_zero_iff.mp h.symm
    rfl
  | cons c p ih =>
    obtain ⟨d, q, rfl⟩ := List.exists_cons_of_length_eq_add_one h.symm
    have hstep : gfMul (acc ^^^ acc') x ^^^ (c ^^^ d) = (gfMul acc x ^^^ c) ^^^ (gfMul acc' x ^^^ d) := by
      rw [gfMul_xor_left]
      ac_rfl
    rw [List.zipWith_cons_cons, evalFrom_cons, evalFrom_cons, evalFrom_cons, hstep, ih (Nat.succ.inj h)]

theorem evalPoly_zipWith_xor {p q : List Byte} (h : p.length = q.length) (x : Byte) :
    evalPoly (List.zipWith (· ^^^ ·) p q) x = evalPoly p x ^^^ evalPoly q x :=
  evalFrom_zipWith_xor x h 0#8 0#8

theorem evalPoly_map_gfMul (p : List Byte) (r x : Byte) :
    evalPoly (p.map fun c => gfMul c r) x = gfMul (evalPoly p x) r := by
  induction p using List.reverseRecOn with
  | nil => exact (zero_gfMul r).symm
  | append_singleton p c ih =>
    rw [List.map_append, List.map_singleton, evalPoly_concat, evalPoly_concat, ih, gfMul_xor_left, gfMul_assoc,
      gfMul_assoc, gfMul_comm r x]

@[simp] theorem evalPoly_replicate_zero (n : Nat) (x : Byte) : evalPoly (List.replicate n 0#8) x = 0#8 := by
  induction n with
  | zero => rfl
  | succ n ih => rw [List.replicate_succ', evalPoly_concat, ih, zero_gfMul, BitVec.xor_self]

/-- Zeros in front of a polynomial do not change it. -/
theorem evalPoly_replicate_zero_append (n : Nat) (p : List Byte) (x : Byte) :
    evalPoly (List.replicate n 0#8 ++ p) x = evalPoly p x := by
  rw [evalPoly_append, evalPoly_replicate_zero, ← evalPoly_eq_evalFrom]

/-- Zeros after a polynomial multiply it by a power of x, which keeps its roots. -/
theorem evalPoly_append_replicate_zero {p : List Byte} {x : Byte} (h : evalPoly p x = 0#8) (n : Nat) :
    evalPoly (p ++ List.replicate n 0#8) x = 0#8 := by
  rw [evalPoly_append, h, ← evalPoly_eq_evalFrom, evalPoly_replicate_zero]

/-! ### GEN and its roots (R140, R141) -/

theorem evalPoly_timesLinear (p : List Byte) (r x : Byte) :
    evalPoly (timesLinear p r) x = gfMul (evalPoly p x) (x ^^^ r) := by
  rw [timesLinear, evalPoly_zipWith_xor (by simp), gfMul_xor_right, ← evalPoly_map_gfMul p r, evalPoly_concat,
    BitVec.xor_zero]
  exact congrArg _ (evalPoly_replicate_zero_append 1 _ x)

/-- A product of linear factors vanishes at the root of each. -/
theorem evalPoly_foldl_timesLinear_of_mem (root : Nat → Byte) {is : List Nat} {i : Nat} (hi : i ∈ is) (p : List Byte) :
    evalPoly (is.foldl (fun p i => timesLinear p (root i)) p) (root i) = 0#8 := by
  induction is using List.reverseRecOn with
  | nil => cases hi
  | append_singleton is j ih =>
    rw [List.foldl_append, List.foldl_cons, List.foldl_nil, evalPoly_timesLinear]
    obtain hi | hi := List.mem_append.mp hi
    · rw [ih hi, zero_gfMul]
    · rw [List.mem_singleton.mp hi, BitVec.xor_self, gfMul_zero]

theorem gen_eq_product :
    Rom.gen.toList = (List.range 10).foldl (fun p i => timesLinear p (gfPow 2#8 (BitVec.ofNat 8 i))) [1#8] := by
  decide +kernel

theorem evalPoly_gen {i : Nat} (hi : i < 10) : evalPoly Rom.gen.toList (gfPow 2#8 (BitVec.ofNat 8 i)) = 0#8 := by
  rw [gen_eq_product]
  exact evalPoly_foldl_timesLinear_of_mem (fun i => gfPow 2#8 (BitVec.ofNat 8 i)) (List.mem_range.mpr hi) [1#8]

/-! ### A row of the division (R142) -/

/-- The coefficient that row i subtracts a multiple of at entry k: the divisor, shifted i places. -/
def rowCoeff (g : Vector Byte 11) (i k : Nat) : Byte := if i ≤ k then g[k - i]?.getD 0#8 else 0#8

/-- One turn of row i: a multiple of the divisor's coefficient j into entry i + j. -/
def rowTurn (g : Vector Byte 11) (factor : Byte) (i : Nat) (a : Vector Byte 26) (j : Nat) : Vector Byte 26 :=
  a.setIfInBounds (i + j) (a[i + j]?.getD 0#8 ^^^ gfMul (if j < 11 then g[j]?.getD 0#8 else 0#8) factor)

theorem divideRow_eq_foldl_rowTurn (g : Vector Byte 11) (a : Vector Byte 26) {i : Nat} (hi : i < 26) :
    divideRow g a i = (List.range (26 - i)).foldl (rowTurn g a[i] i) a := by
  simp only [divideRow, Vector.getElem?_eq_getElem hi, Option.getD_some]
  rfl

theorem getElem_rowTurn (g : Vector Byte 11) (factor : Byte) (i : Nat) (a : Vector Byte 26) (j : Nat) {k : Nat}
    (hk : k < 26) :
    (rowTurn g factor i a j)[k] = a[k] ^^^ (if k = i + j then gfMul (rowCoeff g i k) factor else 0#8) := by
  rw [rowTurn, Vector.getElem_setIfInBounds hk]
  by_cases hturn : i + j = k
  · subst hturn
    have hcoeff : (if j < 11 then g[j]?.getD 0#8 else 0#8) = rowCoeff g i (i + j) := by
      rw [rowCoeff, if_pos (Nat.le_add_right i j), Nat.add_sub_cancel_left]
      by_cases hj : j < 11
      · rw [if_pos hj]
      · rw [if_neg hj, Vector.getElem?_eq_none (Nat.le_of_not_lt hj), Option.getD_none]
    rw [if_pos rfl, if_pos rfl, hcoeff, Vector.getElem?_eq_getElem hk, Option.getD_some]
  · rw [if_neg hturn, if_neg (Ne.symm hturn), BitVec.xor_zero]

/-- The first n turns of row i touch the n entries from i on. -/
theorem getElem_foldl_rowTurn (g : Vector Byte 11) (factor : Byte) (a : Vector Byte 26) {i k : Nat} (n : Nat)
    (hk : k < 26) :
    ((List.range n).foldl (rowTurn g factor i) a)[k]
      = a[k] ^^^ (if k < i + n then gfMul (rowCoeff g i k) factor else 0#8) := by
  induction n with
  | zero =>
    rw [List.range_zero, List.foldl_nil]
    split
    · rw [rowCoeff, if_neg (by omega), zero_gfMul, BitVec.xor_zero]
    · rw [BitVec.xor_zero]
  | succ n ih =>
    rw [List.range_succ, List.foldl_append, List.foldl_cons, List.foldl_nil, getElem_rowTurn g factor i _ n hk, ih]
    by_cases hturn : k = i + n
    · rw [if_pos hturn, if_neg (by omega), if_pos (by omega), BitVec.xor_zero]
    · rw [if_neg hturn, BitVec.xor_zero]
      congr 2
      exact propext (by omega)

/-- Row i subtracts the divisor, shifted i places and multiplied by entry i. -/
theorem getElem_divideRow (g : Vector Byte 11) (a : Vector Byte 26) {i k : Nat} (hi : i < 26) (hk : k < 26) :
    (divideRow g a i)[k] = a[k] ^^^ gfMul (rowCoeff g i k) a[i] := by
  simp only [divideRow_eq_foldl_rowTurn g a hi]
  rw [getElem_foldl_rowTurn g a[i] a (26 - i) hk, if_pos (by omega)]

/-- The working array after the first n rows. -/
def divideRows (g : Vector Byte 11) (n : Nat) (a : Vector Byte 26) : Vector Byte 26 :=
  (List.range n).foldl (divideRow g) a

theorem remainder_eq_eccBlock_divideRows (b : Vector Byte 16) (g : Vector Byte 11) :
    remainder b g = eccBlock (divideRows g 16 (extendBlock b)) := rfl

theorem divideRows_succ (g : Vector Byte 11) (n : Nat) (a : Vector Byte 26) :
    divideRows g (n + 1) a = divideRow g (divideRows g n a) n := by
  rw [divideRows, List.range_succ, List.foldl_append, List.foldl_cons, List.foldl_nil, divideRows]

/-! ### The division is linear (R143) -/

theorem divideRow_zipWith_xor (g : Vector Byte 11) (a b : Vector Byte 26) {i : Nat} (hi : i < 26) :
    divideRow g (Vector.zipWith (· ^^^ ·) a b) i = Vector.zipWith (· ^^^ ·) (divideRow g a i) (divideRow g b i) := by
  refine Vector.ext fun k hk => ?_
  rw [getElem_divideRow g _ hi hk, Vector.getElem_zipWith, Vector.getElem_zipWith, Vector.getElem_zipWith,
    getElem_divideRow g a hi hk, getElem_divideRow g b hi hk, gfMul_xor_right]
  ac_rfl

theorem divideRows_zipWith_xor (g : Vector Byte 11) (a b : Vector Byte 26) {n : Nat} (hn : n ≤ 26) :
    divideRows g n (Vector.zipWith (· ^^^ ·) a b)
      = Vector.zipWith (· ^^^ ·) (divideRows g n a) (divideRows g n b) := by
  induction n with
  | zero => rfl
  | succ n ih =>
    rw [divideRows_succ, divideRows_succ, divideRows_succ, ih (by omega), divideRow_zipWith_xor g _ _ (by omega)]

theorem extendBlock_zipWith_xor (b c : Vector Byte 16) :
    extendBlock (Vector.zipWith (· ^^^ ·) b c) = Vector.zipWith (· ^^^ ·) (extendBlock b) (extendBlock c) := by
  refine Vector.ext fun k hk => ?_
  by_cases h : k < 16 <;> simp [extendBlock, h]

theorem eccBlock_zipWith_xor (a b : Vector Byte 26) :
    eccBlock (Vector.zipWith (· ^^^ ·) a b) = Vector.zipWith (· ^^^ ·) (eccBlock a) (eccBlock b) := by
  refine Vector.ext fun k hk => ?_
  simp [eccBlock]

/-! ### The division by GEN keeps the values at its roots (R143) -/

/-- The divisor of row i as a polynomial. -/
def rowPoly (i : Nat) : List Byte := (List.range 26).map (rowCoeff Rom.gen i)

theorem rowPoly_eq : ∀ i < 16, rowPoly i = List.replicate i 0#8 ++ (Rom.gen.toList ++ List.replicate (15 - i) 0#8) := by
  decide

theorem evalPoly_rowPoly {i : Nat} (hi : i < 16) {x : Byte} (hx : evalPoly Rom.gen.toList x = 0#8) :
    evalPoly (rowPoly i) x = 0#8 := by
  rw [rowPoly_eq i hi, evalPoly_replicate_zero_append, evalPoly_append_replicate_zero hx]

theorem toList_divideRow_gen (a : Vector Byte 26) {i : Nat} (hi : i < 26) :
    (divideRow Rom.gen a i).toList = List.zipWith (· ^^^ ·) a.toList ((rowPoly i).map fun c => gfMul c a[i]) := by
  refine List.ext_getElem (by simp [rowPoly]) fun k hk hk' => ?_
  simp [rowPoly, getElem_divideRow Rom.gen a hi (by simpa using hk)]

theorem evalPoly_divideRow_gen (a : Vector Byte 26) {i : Nat} (hi : i < 16) {x : Byte}
    (hx : evalPoly Rom.gen.toList x = 0#8) : evalPoly (divideRow Rom.gen a i).toList x = evalPoly a.toList x := by
  rw [toList_divideRow_gen a (by omega), evalPoly_zipWith_xor (by simp [rowPoly]), evalPoly_map_gfMul,
    evalPoly_rowPoly hi hx, zero_gfMul, BitVec.xor_zero]

theorem evalPoly_divideRows_gen (a : Vector Byte 26) {n : Nat} (hn : n ≤ 16) {x : Byte}
    (hx : evalPoly Rom.gen.toList x = 0#8) : evalPoly (divideRows Rom.gen n a).toList x = evalPoly a.toList x := by
  induction n with
  | zero => rfl
  | succ n ih => rw [divideRows_succ, evalPoly_divideRow_gen _ (by omega) hx, ih (by omega)]

/-- Row k clears entry k, since GEN is monic, and the later rows start further right. -/
theorem getElem_divideRows_gen_of_lt (a : Vector Byte 26) {n k : Nat} (hn : n ≤ 26) (hkn : k < n) :
    (divideRows Rom.gen n a)[k] = 0#8 := by
  induction n with
  | zero => omega
  | succ n ih =>
    simp only [divideRows_succ]
    rw [getElem_divideRow Rom.gen _ (by omega) (by omega)]
    by_cases hlast : k = n
    · subst hlast
      have hmonic : rowCoeff Rom.gen k k = 1#8 := by
        rw [rowCoeff, if_pos (Nat.le_refl k), Nat.sub_self]
        rfl
      rw [hmonic, one_gfMul, BitVec.xor_self]
    · rw [ih (by omega) (by omega), rowCoeff, if_neg (by omega), zero_gfMul, BitVec.xor_zero]

/-- The Full Codeword is the block, extended by zeros, less what the division leaves of it. -/
theorem appendEcc_cw_eq_zipWith (s : State) :
    (appendEcc s).cw = Vector.zipWith (· ^^^ ·) (extendBlock (dataBlock s.cw))
      (divideRows Rom.gen 16 (extendBlock (dataBlock s.cw))) := by
  refine Vector.ext fun k hk => ?_
  rw [Vector.getElem_zipWith]
  by_cases h : k < 16
  · rw [getElem_divideRows_gen_of_lt _ (by omega) h, getElem_appendEcc_cw_of_lt s h]
    simp [extendBlock, dataBlock, h]
  · simp only [appendEcc_cw, getElem_withEcc, dif_neg h, remainder_eq_eccBlock_divideRows]
    have hzero : (extendBlock (dataBlock s.cw))[k] = 0#8 := by simp [extendBlock, h]
    rw [hzero, BitVec.zero_xor]
    simp [eccBlock, Nat.add_sub_cancel' (Nat.le_of_not_lt h)]

theorem evalPoly_appendEcc_cw (s : State) {x : Byte} (hx : evalPoly Rom.gen.toList x = 0#8) :
    evalPoly (appendEcc s).cw.toList x = 0#8 := by
  rw [appendEcc_cw_eq_zipWith, Vector.toList_zipWith, evalPoly_zipWith_xor (by simp),
    evalPoly_divideRows_gen _ (by omega) hx, BitVec.xor_self]

end Sys2Proof.Machine

namespace Sys2Proof.Proofs

open Sys2Proof.Machine Sys2Proof.Safety

/-- Settles O31: GEN is computed as the product, and a product vanishes where a factor does. -/
theorem generatorIsProductOfRoots : Obligations.GeneratorIsProductOfRoots :=
  ⟨gen_eq_product, rfl, fun _ => evalPoly_gen⟩

/-- Settles O30: every row of the division is linear in the working array. -/
theorem remainderIsLinear : Obligations.RemainderIsLinear := by
  refine ⟨fun b c => ?_, by decide +kernel⟩
  simp only [remainder_eq_eccBlock_divideRows]
  rw [extendBlock_zipWith_xor, divideRows_zipWith_xor _ _ _ (by omega), eccBlock_zipWith_xor]

/-- Settles O32: the rows keep the value at a root of GEN and leave only the remainder, which cancels it. -/
theorem fullCodewordVanishesAtRoots : Obligations.FullCodewordVanishesAtRoots := fun s =>
  ⟨_, exec_eccRem s, fun _ hi => evalPoly_appendEcc_cw s (evalPoly_gen hi)⟩

end Sys2Proof.Proofs
end

section
/-! SUPPORT. 45_placer.md and 44_masker.md: the traversal covers exactly the modules that are not reserved, the rules of a
symbol fix every module, and the masking exemption turns over four modules. -/

namespace Sys2Proof.Machine

open Sys2Proof.Safety

/-! ### The traversal covers the unreserved modules (R195 to R197, R201) -/

/-- The table R197, row after row, is what R196's loop computes. -/
theorem traversal_eq_flatten_table : traversal = traversalTable.flatten := by decide +kernel

theorem getD_flatten_table :
    ∀ n < 26, ∀ b < 8, traversalTable.flatten.getD (8 * n + b) (0, 0) = (traversalTable.getD n []).getD b (0, 0) := by
  decide +kernel

/-- An unreserved module of the pair's columns is visited with the pair. -/
theorem mem_columnPair {x y right : Nat} (up : Bool) (hy : y < 21) (hfree : reserved x y = false)
    (hx : x = right ∨ x = right - 1) : (x, y) ∈ columnPair right up := by
  refine List.mem_flatMap.mpr ⟨if up then 20 - y else y, List.mem_range.mpr (by split <;> omega),
    List.mem_filter.mpr ⟨?_, by simp [hfree]⟩⟩
  have hrow : (if up then 20 - (if up then 20 - y else y) else if up then 20 - y else y) = y := by
    cases up <;> simp; omega
  rw [hrow]
  obtain rfl | rfl := hx <;> simp

/-- The loop visits every unreserved module from its right column to column 0. It starts at an even column and the skip of
column 6, which is all reserved, makes the columns odd, so the last pair is columns 1 and 0. -/
theorem mem_traversalFrom {x y : Nat} (hy : y < 21) (hfree : reserved x y = false) {fuel right : Nat} (up : Bool)
    (hfuel : right ≤ fuel) (hx : x ≤ right) (hparity : right % 2 = 1 ∨ 6 ≤ right) :
    (x, y) ∈ traversalFrom fuel right up := by
  induction fuel generalizing right up with
  | zero => omega
  | succ fuel ih =>
    have hsix : x ≠ 6 := by
      rintro rfl
      simp [reserved] at hfree
    rw [traversalFrom, if_pos (by omega)]
    refine List.mem_append.mpr ?_
    generalize hr : (if right = 6 then 5 else right) = r
    have hr : r = 5 ∧ right = 6 ∨ r = right ∧ right ≠ 6 := by
      split at hr <;> omega
    by_cases hpair : r - 1 ≤ x
    · exact .inl (mem_columnPair up hy hfree (by omega))
    · exact .inr (ih _ (by omega) (by omega) (by omega))

theorem mem_traversal_iff {x y : Nat} (hx : x < 21) (hy : y < 21) : (x, y) ∈ traversal ↔ reserved x y = false := by
  refine ⟨fun h => ?_, fun hfree => mem_traversalFrom hy hfree true (by omega) (by omega) (by omega)⟩
  by_contra hres
  exact notMem_traversal_of_reserved (Bool.eq_true_of_not_eq_false hres) h

/-- An unreserved module carries some data bit. -/
theorem exists_carrier_eq {x y : Nat} (hx : x < 21) (hy : y < 21) (hfree : reserved x y = false) :
    ∃ k < 208, carrier k = (x, y) := by
  obtain ⟨k, hget⟩ := List.mem_iff_getElem?.mp ((mem_traversal_iff hx hy).mpr hfree)
  have hk : k < 208 := traversal_length ▸ (List.getElem?_eq_some_iff.mp hget).1
  exact ⟨k, hk, Option.some.inj ((getElem?_traversal hk).symm.trans hget)⟩

theorem carrier_injective {j k : Nat} (hj : j < 208) (hk : k < 208) (h : carrier j = carrier k) : j = k :=
  (List.getElem?_inj (traversal_length ▸ hj) (traversalFrom_nodup 21 20 true)).mp
    ((getElem?_traversal hj).trans (h ▸ (getElem?_traversal hk).symm))

theorem carrier_lt {k : Nat} (hk : k < 208) : (carrier k).1 < 21 ∧ (carrier k).2 < 21 :=
  lt_of_mem_traversal (List.mem_of_getElem? (getElem?_traversal hk))

/-! ### The rules fix every module (R190 to R201) -/

/-- A module of a separator (R192). -/
def OnSeparator (x y : Nat) : Prop :=
  (x = 7 ∧ y ≤ 7) ∨ (x ≤ 7 ∧ y = 7) ∨ (x = 13 ∧ y ≤ 7) ∨ (13 ≤ x ∧ x ≤ 20 ∧ y = 7)
    ∨ (x = 7 ∧ 13 ≤ y ∧ y ≤ 20) ∨ (x ≤ 7 ∧ y = 13)

/-- A module of a timing pattern, or the dark module (R193). -/
def OnTiming (x y : Nat) : Prop :=
  (8 ≤ x ∧ x ≤ 12 ∧ y = 6) ∨ (x = 6 ∧ 8 ≤ y ∧ y ≤ 12) ∨ (x = 8 ∧ y = 13)

theorem exists_formatPlace1_eq {x y : Nat} (h : (x = 8 ∧ y ≤ 8 ∧ y ≠ 6) ∨ (x ≤ 7 ∧ x ≠ 6 ∧ y = 8)) :
    ∃ i ≤ 14, formatPlace1 i = (x, y) := by
  have column : ∀ y ≤ 8, y ≠ 6 → ∃ i ≤ 14, formatPlace1 i = (8, y) := by decide
  have row : ∀ x ≤ 7, x ≠ 6 → ∃ i ≤ 14, formatPlace1 i = (x, 8) := by decide
  obtain ⟨rfl, hy, hne⟩ | ⟨hx, hne, rfl⟩ := h
  · exact column y hy hne
  · exact row x hx hne

theorem exists_formatPlace2_eq {x y : Nat} (h : (x = 8 ∧ 14 ≤ y ∧ y < 21) ∨ (13 ≤ x ∧ x < 21 ∧ y = 8)) :
    ∃ i ≤ 14, formatPlace2 i = (x, y) := by
  obtain ⟨rfl, hlow, hhigh⟩ | ⟨hlow, hhigh, rfl⟩ := h
  · refine ⟨y - 6, by omega, ?_⟩
    rw [formatPlace2, if_neg (by omega), Nat.add_sub_cancel' (by omega)]
  · refine ⟨20 - x, by omega, ?_⟩
    rw [formatPlace2, if_pos (by omega), Nat.sub_sub_self (by omega)]

/-- Every reserved module belongs to a finder, a separator, a timing pattern or a format copy, or is the dark module. -/
theorem reserved_cases {x y : Nat} (hx : x < 21) (hy : y < 21) (h : reserved x y = true) :
    (∃ o ∈ [(0, 0), (14, 0), (0, 14)], ∃ i ≤ 6, ∃ j ≤ 6, x = o.1 + i ∧ y = o.2 + j)
      ∨ OnSeparator x y ∨ OnTiming x y ∨ (∃ i ≤ 14, formatPlace1 i = (x, y)) ∨ ∃ i ≤ 14, formatPlace2 i = (x, y) := by
  have finder {ox oy : Nat} (ho : (ox, oy) ∈ [(0, 0), (14, 0), (0, 14)])
      (hin : ox ≤ x ∧ x ≤ ox + 6 ∧ oy ≤ y ∧ y ≤ oy + 6) :
      ∃ o ∈ [(0, 0), (14, 0), (0, 14)], ∃ i ≤ 6, ∃ j ≤ 6, x = o.1 + i ∧ y = o.2 + j :=
    ⟨(ox, oy), ho, x - ox, by omega, y - oy, by omega, by omega, by omega⟩
  have hregions : (x ≤ 6 ∧ y ≤ 6) ∨ (14 ≤ x ∧ y ≤ 6) ∨ (x ≤ 6 ∧ 14 ≤ y) ∨ OnSeparator x y ∨ OnTiming x y
      ∨ ((x = 8 ∧ y ≤ 8 ∧ y ≠ 6) ∨ (x ≤ 7 ∧ x ≠ 6 ∧ y = 8))
      ∨ ((x = 8 ∧ 14 ≤ y ∧ y < 21) ∨ (13 ≤ x ∧ x < 21 ∧ y = 8)) := by
    simp only [reserved, Bool.or_eq_true, Bool.and_eq_true, decide_eq_true_eq, beq_iff_eq, or_assoc] at h
    unfold OnSeparator OnTiming
    obtain h | h | h | h | h | h | h := h
    all_goals grind
  obtain h | h | h | h | h | h | h := hregions
  · exact .inl (finder (ox := 0) (oy := 0) (by decide) (by omega))
  · exact .inl (finder (ox := 14) (oy := 0) (by decide) (by omega))
  · exact .inl (finder (ox := 0) (oy := 14) (by decide) (by omega))
  · exact .inr (.inl h)
  · exact .inr (.inr (.inl h))
  · exact .inr (.inr (.inr (.inl (exists_formatPlace1_eq h))))
  · exact .inr (.inr (.inr (.inr (exists_formatPlace2_eq h))))

theorem get_of_separatorsWhite {m : Matrix} (hm : SeparatorsWhite m) {x y : Nat} (h : OnSeparator x y) :
    m.get x y = false := by
  obtain ⟨hleft, hright, htop, hlow, hbottom⟩ := hm
  obtain ⟨rfl, hy⟩ | ⟨hx, rfl⟩ | ⟨rfl, hy⟩ | ⟨hx, hx', rfl⟩ | ⟨rfl, hy, hy'⟩ | ⟨hx, rfl⟩ := h
  · exact (hleft y hy).1
  · exact (hleft x hx).2
  · exact hright y hy
  · exact htop x hx hx'
  · exact hlow y hy hy'
  · exact hbottom x hx

section
variable {m n : Matrix} {x y : Nat}

theorem get_eq_of_timingDrawn (hm : TimingDrawn m) (hn : TimingDrawn n) (h : OnTiming x y) :
    m.get x y = n.get x y := by
  obtain ⟨hm, hmDark⟩ := hm
  obtain ⟨hn, hnDark⟩ := hn
  obtain ⟨hlow, hhigh, rfl⟩ | ⟨rfl, hlow, hhigh⟩ | ⟨rfl, rfl⟩ := h
  · rw [(hm x hlow hhigh).1, (hn x hlow hhigh).1]
  · rw [(hm y hlow hhigh).2, (hn y hlow hhigh).2]
  · rw [hmDark, hnDark]

/-- The fixed patterns, with one setting of the second format copy, decide every reserved module. -/
theorem get_eq_of_fixedPatterns {fmt2En : Bool} (hm : FixedPatterns fmt2En m) (hn : FixedPatterns fmt2En n)
    (hx : x < 21) (hy : y < 21) (hres : reserved x y = true) : m.get x y = n.get x y := by
  obtain ⟨hmFinders, hmSeparators, hmTiming, hmCopy1, hmDrawn2, hmWhite2⟩ := hm
  obtain ⟨hnFinders, hnSeparators, hnTiming, hnCopy1, hnDrawn2, hnWhite2⟩ := hn
  obtain ⟨o, ho, i, hi, j, hj, rfl, rfl⟩ | h | h | ⟨i, hi, hplace⟩ | ⟨i, hi, hplace⟩ := reserved_cases hx hy hres
  · rw [hmFinders o ho i hi j hj, hnFinders o ho i hi j hj]
  · rw [get_of_separatorsWhite hmSeparators h, get_of_separatorsWhite hnSeparators h]
  · exact get_eq_of_timingDrawn hmTiming hnTiming h
  · have h := (hmCopy1 i hi).trans (hnCopy1 i hi).symm
    rwa [hplace] at h
  · have h : m.get (formatPlace2 i).1 (formatPlace2 i).2 = n.get (formatPlace2 i).1 (formatPlace2 i).2 := by
      cases fmt2En with
      | true => exact (hmDrawn2 rfl i hi).trans (hnDrawn2 rfl i hi).symm
      | false => exact (hmWhite2 rfl i hi).trans (hnWhite2 rfl i hi).symm
    rwa [hplace] at h

theorem get_eq_of_dataPlaced {c : Ctrl} {L : Nat} {cw : Vector Byte 26} (hm : DataPlaced c L cw m)
    (hn : DataPlaced c L cw n) {k : Nat} (hk : k < 208) :
    m.get (carrier k).1 (carrier k).2 = n.get (carrier k).1 (carrier k).2 := by
  by_cases h : Inverted c.maskExempt L k
  · rw [(hm k hk).1 h, (hn k hk).1 h]
  · rw [(hm k hk).2 h, (hn k hk).2 h]

/-- Two symbols of one codeword are equal: each module is reserved or carries a data bit. -/
theorem eq_of_isSymbol {c : Ctrl} {L : Nat} {cw : Vector Byte 26} (hm : IsSymbol c L cw m) (hn : IsSymbol c L cw n) :
    m = n := by
  refine Matrix.ext_get fun x y hx hy => ?_
  cases hres : reserved x y with
  | true => exact get_eq_of_fixedPatterns hm.1 hn.1 hx hy hres
  | false =>
    obtain ⟨k, hk, hcarrier⟩ := exists_carrier_eq hx hy hres
    have h := get_eq_of_dataPlaced hm.2 hn.2 hk
    rwa [hcarrier] at h

end

/-! ### The masking exemption (44_masker.md R171, R172, R176) -/

/-- Data bit k is one that the exemption saves from inversion: exempt, and at a module of even parity. -/
def sparedBit (L k : Nat) : Bool := isExempt L k && maskCoord (carrier k).1 (carrier k).2

/-- Two bits of the mode indicator are spared, in codeword 0, and two of the terminator, in codeword L + 1. -/
theorem length_filter_sparedBit : ∀ L ≤ 14, 1 ≤ L →
    ((List.range 208).filter (sparedBit L)).length = 4
      ∧ ((List.range 208).filter fun k => k / 8 == 0 && sparedBit L k).length = 2
      ∧ ((List.range 208).filter fun k => k / 8 == L + 1 && sparedBit L k).length = 2 := by
  decide +kernel

/-- Two of the terminator's bits are at even parity. -/
theorem length_filter_terminator_even : ∀ L ≤ 14, 1 ≤ L →
    ((List.range 208).filter fun k => decide (12 + 8 * L ≤ k ∧ k ≤ 15 + 8 * L)
      && decide (((carrier k).1 + (carrier k).2) % 2 = 0)).length = 2 := by
  decide +kernel

/-- CTRL with the exemption set or not. -/
def Ctrl.withExempt (c : Ctrl) (b : Bool) : Ctrl := { c with maskExempt := b }

theorem mem_grid {p : Nat × Nat} : p ∈ grid ↔ p.1 < 21 ∧ p.2 < 21 := by
  obtain ⟨x, y⟩ := p
  simp [grid, and_comm]

theorem nodup_grid : grid.Nodup := by
  refine List.nodup_flatMap.mpr ⟨fun y _ => List.nodup_range.map fun a b h => (Prod.mk.inj h).1, ?_⟩
  refine List.nodup_range.imp fun {y y'} hne p hp hp' => hne ?_
  obtain ⟨x, -, rfl⟩ := List.mem_map.mp hp
  obtain ⟨x', -, h⟩ := List.mem_map.mp hp'
  exact (Prod.mk.inj h).2.symm

section
variable (c : Ctrl) (L : Nat) (cw : Vector Byte 26)

/-- The symbols with and without the exemption differ at (x, y). -/
def exemptionDiffers (x y : Nat) : Bool :=
  (symbolMatrix (c.withExempt true) L cw).get x y != (symbolMatrix (c.withExempt false) L cw).get x y

/-- At a data module the two symbols differ where the bit is spared. -/
theorem exemptionDiffers_carrier {k : Nat} (hk : k < 208) :
    exemptionDiffers c L cw (carrier k).1 (carrier k).2 = sparedBit L k := by
  rw [exemptionDiffers, get_symbolMatrix_carrier _ _ _ hk, get_symbolMatrix_carrier _ _ _ hk, sparedBit, inverted,
    inverted]
  cases streamBit cw k <;> cases maskCoord _ _ <;> cases isExempt L k <;> rfl

/-- At a reserved module they agree. -/
theorem exemptionDiffers_of_reserved {x y : Nat} (hx : x < 21) (hy : y < 21) (hres : reserved x y = true) :
    exemptionDiffers c L cw x y = false := by
  have h := get_eq_of_fixedPatterns (fixedPatterns_symbolMatrix (c.withExempt true) L cw)
    (fixedPatterns_symbolMatrix (c.withExempt false) L cw) hx hy hres
  rw [exemptionDiffers, h, bne_self_eq_false]

/-- The modules where the two symbols differ are those that carry a spared bit. -/
theorem filter_grid_exemptionDiffers_perm :
    (grid.filter fun p => exemptionDiffers c L cw p.1 p.2).Perm (((List.range 208).filter (sparedBit L)).map carrier) := by
  have hnodup : (((List.range 208).filter (sparedBit L)).map carrier).Nodup := by
    refine List.Nodup.map_on (fun j hj k hk => carrier_injective ?_ ?_) (List.nodup_range.filter _)
    · exact List.mem_range.mp (List.mem_filter.mp hj).1
    · exact List.mem_range.mp (List.mem_filter.mp hk).1
  refine (List.perm_ext_iff_of_nodup (nodup_grid.filter _) hnodup).mpr fun p => ?_
  rw [List.mem_filter, mem_grid, List.mem_map]
  constructor
  · rintro ⟨⟨hx, hy⟩, hdiffer⟩
    cases hres : reserved p.1 p.2 with
    | true =>
      rw [exemptionDiffers_of_reserved c L cw hx hy hres] at hdiffer
      cases hdiffer
    | false =>
      obtain ⟨k, hk, hcarrier⟩ := exists_carrier_eq hx hy hres
      obtain rfl : carrier k = p := hcarrier
      rw [exemptionDiffers_carrier c L cw hk] at hdiffer
      exact ⟨k, List.mem_filter.mpr ⟨List.mem_range.mpr hk, hdiffer⟩, rfl⟩
  · rintro ⟨k, hk, rfl⟩
    obtain ⟨hk, hspared⟩ := List.mem_filter.mp hk
    have hk := List.mem_range.mp hk
    exact ⟨carrier_lt hk, (exemptionDiffers_carrier c L cw hk).trans hspared⟩

theorem filter_range_exemptionDiffers (q : Nat → Bool) :
    ((List.range 208).filter fun k => q k && exemptionDiffers c L cw (carrier k).1 (carrier k).2)
      = (List.range 208).filter fun k => q k && sparedBit L k :=
  List.filter_congr fun k hk => by rw [exemptionDiffers_carrier c L cw (List.mem_range.mp hk)]

end

end Sys2Proof.Machine

namespace Sys2Proof.Proofs

open Sys2Proof.Machine Sys2Proof.Safety

/-- Settles O34: the computed traversal is the table's rows one after another. -/
theorem traversalIsTable : Obligations.TraversalIsTable := by
  refine ⟨rfl, fun n hn b hb => ?_, fun cw n b hn hb => ?_⟩
  · rw [carrier, traversal_eq_flatten_table]
    exact getD_flatten_table n hn b hb
  · have hdiv : (8 * n + b) / 8 = n := by omega
    have hmod : (8 * n + b) % 8 = b := by omega
    rw [streamBit, hdiv, hmod, Vector.getElem?_eq_getElem hn, Option.getD_some]

/-- Settles O35: the loop's column pairs cover every unreserved module and visit none twice. -/
theorem traversalVisitsEachDataModuleOnce : Obligations.TraversalVisitsEachDataModuleOnce :=
  ⟨traversal_length, traversalFrom_nodup _ _ _, rfl, fun _ hx _ hy => mem_traversal_iff hx hy,
    fun _ => lt_of_mem_traversal, by decide +kernel⟩

/-- Settles O40: the rules hold of PLACE's matrix, and they hold of one matrix only. -/
theorem symbolRulesDetermineMatrix : Obligations.SymbolRulesDetermineMatrix := by
  intro c L cw m
  refine ⟨fun h => eq_of_isSymbol h (isSymbol_symbolMatrix c L cw), ?_⟩
  rintro rfl
  exact isSymbol_symbolMatrix c L cw

/-- Settles O41: with the exemption the exempt bits are not inverted and the ECC bits are no exempt ones, and the two symbols
differ at the modules of the four spared bits. -/
theorem maskExemptionProperties : Obligations.MaskExemptionProperties := by
  intro s hs hexempt
  have hctrl : s.ctrl = s.ctrl.withExempt true := by rw [← hexempt]; rfl
  have hu : LegalLength (s.setCtrl (s.ctrl.withExempt false)) := hs
  have huMat : (placeSymbol (s.setCtrl (s.ctrl.withExempt false))).mat
      = symbolMatrix (s.ctrl.withExempt false) s.msglen.toNat s.cw := placeSymbol_mat _
  have htMat : (placeSymbol s).mat = symbolMatrix (s.ctrl.withExempt true) s.msglen.toNat s.cw := by
    rw [placeSymbol_mat, ← hctrl]
  have hplaced : DataPlaced s.ctrl s.msglen.toNat s.cw (placeSymbol s).mat := by
    rw [placeSymbol_mat]
    exact dataPlaced_symbolMatrix _ _ _
  obtain ⟨hall, hmode, hterm⟩ := length_filter_sparedBit _ hs.2 hs.1
  refine ⟨placeSymbol s, placeSymbol (s.setCtrl (s.ctrl.withExempt false)), exec_place_of_legalLength hs,
    exec_place_of_legalLength hu, fun k hk hex => ?_, fun k hk hecc => ?_,
    by decide, length_filter_terminator_even _ hs.2 hs.1, ?_, ?_, ?_⟩
  · exact (hplaced k hk).2 fun hinv => hinv.2 ⟨hexempt, hex⟩
  · have hnotExempt : ¬ Exempt s.msglen.toNat k := by
      have hle : s.msglen.toNat ≤ 14 := hs.2
      unfold Exempt
      omega
    by_cases heven : ((carrier k).1 + (carrier k).2) % 2 = 0
    · rw [(hplaced k hk).1 ⟨heven, fun h => hnotExempt h.2⟩, decide_eq_true heven, Bool.xor_true]
    · rw [(hplaced k hk).2 fun hinv => heven hinv.1, decide_eq_false heven, Bool.xor_false]
  · rw [huMat, htMat, ← hall, ← List.length_map carrier]
    exact (filter_grid_exemptionDiffers_perm s.ctrl s.msglen.toNat s.cw).length_eq
  · rw [huMat, htMat, ← hmode]
    exact congrArg _ (filter_range_exemptionDiffers s.ctrl s.msglen.toNat s.cw (· / 8 == 0))
  · rw [huMat, htMat, ← hterm]
    exact congrArg _ (filter_range_exemptionDiffers s.ctrl s.msglen.toNat s.cw (· / 8 == s.msglen.toNat + 1))

end Sys2Proof.Proofs
end
